-- ==== Sys2Proof/Word.lean ====
section
/-! DEFINITION. The two data widths of the block: the 32-bit register word (00_scope.md R9, 40_arith_primitives.md R130) and the
byte lane of the bus (20_memory.md R73). -/

namespace Sys2Proof

/-- A register content or a bus word: a 32-bit pattern (R9). -/
abbrev Word := BitVec 32

/-- One byte lane of the bus (R73). -/
abbrev Byte := BitVec 8

end Sys2Proof
end

