-- ==== Sys2Proof/Config.lean ====
section
/-! DEFINITION. The implementation parameters of 00_scope.md R7: what one build of the block fixes, and
the range and default of the one it takes as an argument. -/

namespace Sys2Proof.Config

/-- The values FRAC may take, 0 ≤ FRAC ≤ 31 (R7). -/
abbrev Frac := Fin 32

/-- FRAC, the fractional bits of a gain, in this hardware (R7, 40_arith_primitives.md R133): the default of the argument `frac`
that State holds (notes/assumptions/6.md). -/
def frac : Frac := 16

/-- TABLE_BITS, the source's k: the sine table has 2^9 = 512 points a turn (R7, 41_trig.md R160). -/
def tableBits : Nat := 9

/-- TICK_FRAC, the fractional tick bits of `CARRY` (R7). -/
def tickFrac : Nat := 16

/-- NPI, the number of PI controller instances (R7). -/
def npi : Nat := 4

/-- NH, the number of harmonic terms (R7). -/
def nh : Nat := 4

/-- ORDER[0..3], the harmonic order of each term: 1, 3, 5, 7 (R7, 10_state.md R34). -/
def order (j : Fin 4) : Int := 2 * j.val + 1

/-- LAT(op), the latency in clock cycles of the operation code `op` (R7, 70_reset_and_hazards.md R375): an OPEN parameter, one
number per opcode. It has no body, so no proof can know it, and no rule depends on it (notes/assumptions/7.md). -/
opaque lat (op : BitVec 8) : Nat

end Sys2Proof.Config
end

