-- ==== Sys2Proof/Syntax.lean ====
section
/-! DEFINITION. The block's language: the 20 commands of 30_encoding.md R109, and the moves of the host (46_system.md R299), which
are the lines of a host program (30_encoding.md R110). -/

namespace Sys2Proof

/-- The commands, one constructor for each row of the opcode table (30_encoding.md R109). No command has an immediate or a
register field (R103): the one operand field is `SEL` of PIUPD. -/
inductive Instr where
  /-- NOP: no effect but the word in `CMD` (46_system.md R291). -/
  | nop
  /-- UVEC: sine and cosine of a phase (41_trig.md R170). -/
  | uvec
  /-- ROT: rotate a pair (41_trig.md R172). -/
  | rot
  /-- SH120P: shift a unit vector by +120 degrees (41_trig.md R174). -/
  | sh120p
  /-- SH120N: shift a unit vector by −120 degrees (41_trig.md R175). -/
  | sh120n
  /-- NHARM: next harmonic of a recursion (41_trig.md R177). -/
  | nharm
  /-- CLARKE: three phases to alpha, beta (42_transforms.md R192). -/
  | clarke
  /-- CLARKE0: three phases to alpha, beta, zero (42_transforms.md R193). -/
  | clarke0
  /-- ICLARKE: alpha, beta to three phases (42_transforms.md R195). -/
  | iclarke
  /-- ICLARKE0: alpha, beta, zero to three phases (42_transforms.md R196). -/
  | iclarke0
  /-- PARK: stationary to rotating frame (42_transforms.md R198). -/
  | park
  /-- IPARK: rotating to stationary frame (42_transforms.md R200). -/
  | ipark
  /-- ABC2DQ: three phases to the rotating frame (42_transforms.md R202). -/
  | abc2dq
  /-- L2SEQ: line quantities to sequence components (42_transforms.md R205). -/
  | l2seq
  /-- SEQ2L: sequence components to line quantities (42_transforms.md R207). -/
  | seq2l
  /-- PIUPD.i: one update of PI controller instance `sel` (43_pi.md R222). -/
  | piupd (sel : Fin 4)
  /-- BANKSTEP: one sample of the oscillator bank (44_bank.md R239). -/
  | bankstep
  /-- PLLINIT: construction of the PLL (45_pll.md R251). -/
  | pllinit
  /-- PLLSTEP: one sample tick of the PLL (45_pll.md R252). -/
  | pllstep
  /-- SRST: soft reset (46_system.md R293). -/
  | srst
deriving DecidableEq, Repr

/-- A move of the host (46_system.md R299): the only things that ever happen to the block. -/
inductive HostMove where
  /-- `MemRead(addr, size)`: a bus read of `size` bytes at byte offset `addr` from the block's base (20_memory.md R71). -/
  | read (addr size : Nat)
  /-- `MemWrite(addr, size, value)`: a bus write (20_memory.md R71). `value` is the 32-bit word on the lanes: only a 4-byte
  write is ever performed (R72), so no more of a wider or narrower write can matter (notes/assumptions/13.md). -/
  | write (addr size : Nat) (value : Word)
  /-- The reset input is asserted (70_reset_and_hazards.md R350). -/
  | reset
deriving DecidableEq, Repr

end Sys2Proof
end

