-- ==== Sys2Proof/WellFormed.lean ====
section
/-! DEFINITION. Which terms of the language mean something: a host move must reach the block (20_memory.md R78), a command must
name an instance that exists (30_encoding.md R101). -/

namespace Sys2Proof

/-- The block decodes the byte offsets 0x000 to 0x1FF and no others (10_state.md R45, 20_memory.md R71, R78). -/
def inBlock (addr : Nat) : Bool := addr < 0x200

/-- A move the spec gives a meaning: an access, of any width and alignment, to an offset the block decodes, or the reset input
(46_system.md R299; 93_implementation_defined.md I25 refuses the rest). -/
def HostMove.wf : HostMove → Bool
  | .read addr _ => inBlock addr
  | .write addr _ _ => inBlock addr
  | .reset => true

/-- A command names a PI instance that exists (30_encoding.md R101, 43_pi.md R222). The type of `sel` already says so, so no
term of `Instr` is ill-formed: an ill-formed WORD is what `decode` rejects. -/
def Instr.wf : Instr → Bool
  | .piupd sel => sel.val < Config.npi
  | .nop => true
  | .uvec => true
  | .rot => true
  | .sh120p => true
  | .sh120n => true
  | .nharm => true
  | .clarke => true
  | .clarke0 => true
  | .iclarke => true
  | .iclarke0 => true
  | .park => true
  | .ipark => true
  | .abc2dq => true
  | .l2seq => true
  | .seq2l => true
  | .bankstep => true
  | .pllinit => true
  | .pllstep => true
  | .srst => true

end Sys2Proof
end

