-- ==== Sys2Proof/Decode.lean ====
section
/-! DEFINITION. The command word: its fields (30_encoding.md R101, R102), decoding (R105, R106, R109), and the encoder written from
the same table. -/

namespace Sys2Proof

/-- Why a word is no command (30_encoding.md R105). All three raise the same fault bit (60_exceptions.md R311). -/
inductive DecodeError where
  /-- Bits 31:10 are not all zero. -/
  | reservedBits
  /-- OPC is not in the opcode table: one of the 236 reserved values (R106). -/
  | reservedOpcode
  /-- SEL is not zero with an opcode other than PIUPD's. -/
  | selNotZero
deriving DecidableEq, Repr

/-- OPC = w[7:0] (R102). -/
def opcField (w : Word) : BitVec 8 := w.extractLsb' 0 8

/-- SEL = w[9:8] (R102). -/
def selField (w : Word) : BitVec 2 := w.extractLsb' 8 2

/-- ZERO = w[31:10] (R102). -/
def zeroField (w : Word) : BitVec 22 := w.extractLsb' 10 22

/-- The opcode table (30_encoding.md R109): the command of an OPC value, `sel` being the SEL field read as an unsigned number
(R102, R103). A value with no row is reserved (R106). -/
def opcodeRow (opc : Nat) (sel : Fin 4) : Option Instr :=
  match opc with
  | 0x00 => some .nop
  | 0x01 => some .uvec
  | 0x02 => some .rot
  | 0x03 => some .sh120p
  | 0x04 => some .sh120n
  | 0x05 => some .nharm
  | 0x10 => some .clarke
  | 0x11 => some .clarke0
  | 0x12 => some .iclarke
  | 0x13 => some .iclarke0
  | 0x14 => some .park
  | 0x15 => some .ipark
  | 0x16 => some .abc2dq
  | 0x18 => some .l2seq
  | 0x19 => some .seq2l
  | 0x20 => some (.piupd sel)
  | 0x30 => some .bankstep
  | 0x40 => some .pllinit
  | 0x41 => some .pllstep
  | 0x7F => some .srst
  | _ => none

/-- Decoding of a written word (30_encoding.md R105), total, each rejection by its name. The spec says the order of the three
tests cannot be observed. -/
def decode (w : Word) : Except DecodeError Instr :=
  if zeroField w ≠ 0 then .error .reservedBits
  else
    match opcodeRow (opcField w).toNat (selField w).toFin with
    | none => .error .reservedOpcode
    | some i => if opcField w ≠ 0x20 ∧ selField w ≠ 0 then .error .selNotZero else .ok i

/-- The OPC of a command (30_encoding.md R109). -/
def Instr.opc : Instr → BitVec 8
  | .nop => 0x00
  | .uvec => 0x01
  | .rot => 0x02
  | .sh120p => 0x03
  | .sh120n => 0x04
  | .nharm => 0x05
  | .clarke => 0x10
  | .clarke0 => 0x11
  | .iclarke => 0x12
  | .iclarke0 => 0x13
  | .park => 0x14
  | .ipark => 0x15
  | .abc2dq => 0x16
  | .l2seq => 0x18
  | .seq2l => 0x19
  | .piupd _ => 0x20
  | .bankstep => 0x30
  | .pllinit => 0x40
  | .pllstep => 0x41
  | .srst => 0x7F

/-- The SEL field of a command: the instance for PIUPD, 0 for every other (30_encoding.md R101). -/
def Instr.selBits : Instr → BitVec 2
  | .piupd sel => BitVec.ofFin sel
  | .nop => 0
  | .uvec => 0
  | .rot => 0
  | .sh120p => 0
  | .sh120n => 0
  | .nharm => 0
  | .clarke => 0
  | .clarke0 => 0
  | .iclarke => 0
  | .iclarke0 => 0
  | .park => 0
  | .ipark => 0
  | .abc2dq => 0
  | .l2seq => 0
  | .seq2l => 0
  | .bankstep => 0
  | .pllinit => 0
  | .pllstep => 0
  | .srst => 0

/-- The word of a command in format C: 22 zero bits, SEL, OPC (30_encoding.md R101). -/
def encode (i : Instr) : Word := (0 : BitVec 22) ++ i.selBits ++ i.opc

/-- LAT of a command: one number per opcode, whatever the operands and the state (70_reset_and_hazards.md R375). -/
def Instr.latency (i : Instr) : Nat := Config.lat i.opc

/-- The word a bus write of `w` puts on the lanes when only the low `nbits` bits of `w` are given: every bit above is 0. A command
is 32 bits long (30_encoding.md R101), so nothing above bit 31 exists (notes/assumptions/14.md). -/
def tableWord (nbits w : Nat) : Word := BitVec.ofNat 32 (w % 2 ^ nbits)

/-- The command the decoder reads from an instruction of the opcode table, its bits numbered as the table numbers them. A
command is one 32-bit bus word, bit 0 the least significant (30_encoding.md R101), so more than 32 bits are no command. -/
def decodeTableWord (nbits w : Nat) : Option Instr :=
  if w % 2 ^ nbits < 2 ^ 32 then
    match decode (tableWord nbits w) with
    | .ok i => some i
    | .error _ => none
  else none

end Sys2Proof
end

