-- ==== Sys2Proof/Machine/State.lean ====
section
/-! DEFINITION. The state: the 76 registers of 10_state.md R45, all there is in the block (R20, R50), beside the model's
argument FRAC (00_scope.md R7), the host moves still to come and the values its reads returned (46_system.md R298); the state
after reset; why a step can stop. -/

namespace Sys2Proof.Machine

/-- Six registers of one kind: `IN0`..`IN5` or `OUT0`..`OUT5` (10_state.md R21, R22). -/
structure Six where
  x0 : Word
  x1 : Word
  x2 : Word
  x3 : Word
  x4 : Word
  x5 : Word
deriving DecidableEq, Repr

/-- One PI controller instance (10_state.md R33). -/
structure PiRegs where
  /-- `KP`, proportional gain, signed, FRAC fractional bits. -/
  kp : Word
  /-- `KI`, integral gain, signed, FRAC fractional bits. -/
  ki : Word
  /-- `MAXI`, the symmetric clamp limit, unsigned, mask 0x7FFFFFFF. -/
  maxi : Word
  /-- `INTEG`, the clamped integral accumulator, signed. -/
  integ : Word
deriving DecidableEq, Repr

/-- One harmonic term (10_state.md R34). -/
structure TermRegs where
  /-- `ALPHA`, rotating state, alpha component, signed. -/
  alpha : Word
  /-- `BETA`, rotating state, beta component, signed. -/
  beta : Word
  /-- `COSINC`, cosine of the increment, Q31. -/
  cosinc : Word
  /-- `SININC`, sine of the increment, Q31. -/
  sininc : Word
  /-- `KALPHA`, feedback gain, signed, FRAC fractional bits. -/
  kalpha : Word
  /-- `KBETA`, feedback gain, signed, FRAC fractional bits. -/
  kbeta : Word
deriving DecidableEq, Repr

/-- Four like things: the PI instances `PI[0..3]` (R33) or the terms `T[0..3]` (R34). -/
structure Four (α : Type) where
  x0 : α
  x1 : α
  x2 : α
  x3 : α
deriving DecidableEq, Repr

/-- The register file: the complete architectural state of the block (10_state.md R20, R45). -/
structure Regs where
  /-- `CMD`: the last word written to it (R26). -/
  cmd : Word
  /-- `STATUS`: bit 0 ILLCMD, bit 1 CFGERR, bit 2 BADADDR, sticky (R27). -/
  status : Word
  /-- `CTRL`: bit 0 DEC, the decoupling stage on (R28). -/
  ctrl : Word
  /-- `IN0`..`IN5` (R21). -/
  inp : Six
  /-- `OUT0`..`OUT5` (R22). -/
  out : Six
  /-- `FREF`, reference frequency, unsigned 31 bits (R29). -/
  fref : Word
  /-- `FMIN`, minimum divisor, unsigned 31 bits (R30). -/
  fmin : Word
  /-- `NOMTICKS`, nominal timer ticks, unsigned 16 bits (R31). -/
  nomticks : Word
  /-- `LPFK`, smoothing coefficient, unsigned 31 bits (R32). -/
  lpfk : Word
  /-- `PI[0..3]` (R33). -/
  pi : Four PiRegs
  /-- `T[0..3]` (R34). -/
  term : Four TermRegs
  /-- `ACC`, the new reconstructed estimate (R35). -/
  acc : Word
  /-- `ERR`, the error the last bank step used (R35). -/
  err : Word
  /-- `DPOS_BAR` (R36). -/
  dposBar : Word
  /-- `QPOS_BAR` (R36). -/
  qposBar : Word
  /-- `DNEG_BAR` (R36). -/
  dnegBar : Word
  /-- `QNEG_BAR` (R36). -/
  qnegBar : Word
  /-- `THETA`, the phase accumulator (R37). -/
  theta : Word
  /-- `SIN`, the current sine (R38). -/
  sin : Word
  /-- `COS`, the current cosine (R38). -/
  cos : Word
  /-- `FERR`, the last f_error (R39). -/
  ferr : Word
  /-- `FEFF`, the last f_eff (R40). -/
  feff : Word
  /-- `DQ_D` (R41). -/
  dqD : Word
  /-- `DQ_Q` (R41). -/
  dqQ : Word
  /-- `DQN_D` (R42). -/
  dqnD : Word
  /-- `DQN_Q` (R42). -/
  dqnQ : Word
  /-- `RELOAD`, the next timer reload, unsigned 16 bits (R43). -/
  reload : Word
  /-- `CARRY`, the fractional-tick accumulator, unsigned 16 bits (R44). -/
  carry : Word
deriving DecidableEq, Repr

/-- The registers of one PI instance by name (R33). -/
inductive PiField where
  | kp
  | ki
  | maxi
  | integ
deriving DecidableEq, Repr

/-- The registers of one harmonic term by name (R34). -/
inductive TermField where
  | alpha
  | beta
  | cosinc
  | sininc
  | kalpha
  | kbeta
deriving DecidableEq, Repr

/-- The names of the 76 registers (10_state.md R45), as the host's listings use them (30_encoding.md R110). -/
inductive Reg where
  | cmd
  | status
  | ctrl
  | inp (i : Fin 6)
  | out (i : Fin 6)
  | fref
  | fmin
  | nomticks
  | lpfk
  | pi (i : Fin 4) (f : PiField)
  | term (j : Fin 4) (f : TermField)
  | acc
  | err
  | dposBar
  | qposBar
  | dnegBar
  | qnegBar
  | theta
  | sin
  | cos
  | ferr
  | feff
  | dqD
  | dqQ
  | dqnD
  | dqnQ
  | reload
  | carry
deriving DecidableEq, Repr

/-- The three faults of the block, each a sticky bit of STATUS (60_exceptions.md R310 to R313). They never stop the machine. -/
inductive StickyFault where
  /-- `IllegalCommand`, STATUS bit 0 (R311). -/
  | illegalCommand
  /-- `ConfigError`, STATUS bit 1 (R312). -/
  | configError
  /-- `BadAddress`, STATUS bit 2 (R313). -/
  | badAddress
deriving DecidableEq, Repr

/-- The machine: the block's registers, its FRAC, and its one outside agent, the host, as plain data. -/
structure State where
  /-- The register file (10_state.md R45). -/
  regs : Regs
  /-- MODEL's own: FRAC, the argument of the model that says which build this is (00_scope.md R7). No register of the block
  holds it and no step writes it (notes/assumptions/6.md). -/
  frac : Config.Frac
  /-- MODEL's own: the moves the host still makes, oldest first (46_system.md R298, R299; notes/assumptions/1.md). -/
  pending : List HostMove
  /-- MODEL's own: the values the host's reads returned, oldest first (46_system.md R298; notes/assumptions/1.md). -/
  reads : List Word
deriving DecidableEq, Repr

/-- Why the machine stops with a fault. -/
inductive Fault where
  /-- A bus access at a byte offset above 0x1FF: the block does not decode it and what the platform does is outside the spec
  (20_memory.md R71, R78; I25). Raised by the bus access of a step. Safe: the model stops where a platform may go on
  (notes/assumptions/4.md). -/
  | outsideBlock (addr : Nat)
deriving DecidableEq, Repr

/-- Why an instruction has no meaning here. -/
inductive Refusal where
  /-- An arm of exec without a meaning. Raised by no arm of this model: every instruction has its meaning. Safe. -/
  | notModelled (mnemonic : String)
deriving DecidableEq, Repr

/-- Six registers at 0. -/
def Six.zero : Six := ⟨0, 0, 0, 0, 0, 0⟩

/-- A PI instance after reset (10_state.md R33). -/
def PiRegs.zero : PiRegs := ⟨0, 0, 0, 0⟩

/-- A term after reset (10_state.md R34). -/
def TermRegs.zero : TermRegs := ⟨0, 0, 0, 0, 0, 0⟩

/-- Every register at its reset value: 0, but `COS` at 0x7FFFFFFF (10_state.md R45, R53; 70_reset_and_hazards.md R350). -/
def Regs.reset : Regs where
  cmd := 0
  status := 0
  ctrl := 0
  inp := Six.zero
  out := Six.zero
  fref := 0
  fmin := 0
  nomticks := 0
  lpfk := 0
  pi := ⟨PiRegs.zero, PiRegs.zero, PiRegs.zero, PiRegs.zero⟩
  term := ⟨TermRegs.zero, TermRegs.zero, TermRegs.zero, TermRegs.zero⟩
  acc := 0
  err := 0
  dposBar := 0
  qposBar := 0
  dnegBar := 0
  qnegBar := 0
  theta := 0
  sin := 0
  cos := 0x7FFFFFFF
  ferr := 0
  feff := 0
  dqD := 0
  dqQ := 0
  dqnD := 0
  dqnQ := 0
  reload := 0
  carry := 0

/-- The machine right after reset: the registers of R350, FRAC at its default (00_scope.md R7,
notes/assumptions/6.md), no host move waiting and no read made (notes/assumptions/1.md). -/
def State.reset : State where
  regs := Regs.reset
  frac := Config.frac
  pending := []
  reads := []

end Sys2Proof.Machine
end

