-- ==== Sys2Proof/Machine/Arith.lean ====
section
/-! DEFINITION. The fixed-point primitives of 40_arith_primitives.md (R130 to R142): computed on unbounded integers, with every
narrowing named. `/` on Int with a positive divisor is the floor division of 00_scope.md R8. -/

namespace Sys2Proof.Machine

/-- `s32(p)`: a pattern read as two's complement (00_scope.md R9). -/
def s32 (p : Word) : Int := p.toInt

/-- `u32(n)`: an integer stored as a pattern (00_scope.md R9). -/
def u32 (n : Int) : Word := BitVec.ofInt 32 n

/-- A pattern read as an unsigned integer, for the registers that rules read so (40_arith_primitives.md R145;
notes/assumptions/11.md). -/
def uns (p : Word) : Int := p.toNat

/-- −2^31, the least signed word. -/
def wordMin : Int := -2147483648

/-- 2^31 − 1, the greatest signed word. -/
def wordMax : Int := 2147483647

/-- `sat32(v)`: clamped to the nearest representable bound (R134). -/
def sat32 (v : Int) : Int := if v < wordMin then wordMin else if wordMax < v then wordMax else v

/-- `wrap32(v) = s32(u32(v))`: phase arithmetic only (R135). -/
def wrap32 (v : Int) : Int := s32 (u32 v)

/-- `asr(v, n) = floor(v / 2^n)` (R136). -/
def asr (v : Int) (n : Nat) : Int := v / 2 ^ n

/-- Saturating sum (R137). -/
def sadd (a b : Int) : Int := sat32 (a + b)

/-- Saturating difference (R137). -/
def ssub (a b : Int) : Int := sat32 (a - b)

/-- The product of two words with `n` fractional bits taken off, floored and saturated: the common form of R138 and R139. -/
def smulAt (n : Nat) (a b : Int) : Int := sat32 (a * b / 2 ^ n)

/-- `smul31(a, b)`: the Q31 product, by the formula of R138 (its remark on ONE fails at −2^31: notes/assumptions/12.md). -/
def smul31 (a b : Int) : Int := smulAt 31 a b

/-- `smulF(a, b)`: the gain product, `frac` (FRAC) fractional bits, `a` the gain (R139; 00_scope.md R7). -/
def smulF (frac : Config.Frac) (a b : Int) : Int := smulAt frac.val a b

/-- `dmul30(a, b)`: the doubled Q31 product, not saturated (R140). -/
def dmul30 (a b : Int) : Int := a * b / 2 ^ 30

/-- `clamp(v, lo, hi)` (R142). -/
def clamp (v lo hi : Int) : Int := if v < lo then lo else if hi < v then hi else v

/-- `ONE`, the largest Q31 word (R141, R132). -/
def one : Int := 2147483647

/-- `K_SQRT3_2` = round(2^31 · √3/2) (R141). -/
def kSqrt32 : Int := 1859775393

/-- `K_INVSQRT3` = round(2^31 / √3) (R141). -/
def kInvSqrt3 : Int := 1239850262

/-- `K13` = round(2^31 / 3) (R141). -/
def k13 : Int := 715827883

/-- `K23` = round(2^32 / 3) (R141). -/
def k23 : Int := 1431655765

/-- `HK` = round(2π · 2^23), one table step in units of 2^−32 (R141; 41_trig.md R164). -/
def hk : Int := 52707179

/-- `T120` = round(2^32 / 3), one third of a turn in THETA format (R141); used only in test vectors. -/
def t120 : Int := 1431655765

/-- A (sin, cos) pair of signed Q31 words (00_scope.md R14, R15): named fields, since the source's orders differ. -/
structure SinCos where
  sin : Int
  cos : Int
deriving DecidableEq, Repr

/-- An ordered pair (x, y) of signal words (41_trig.md R171). -/
structure XY where
  x : Int
  y : Int
deriving DecidableEq, Repr

/-- Three phase quantities (00_scope.md R15). -/
structure Abc where
  a : Int
  b : Int
  c : Int
deriving DecidableEq, Repr

/-- Stationary-frame pair (00_scope.md R15). -/
structure AlphaBeta where
  alpha : Int
  beta : Int
deriving DecidableEq, Repr

/-- Rotating-frame pair (00_scope.md R15). -/
structure Dq where
  d : Int
  q : Int
deriving DecidableEq, Repr

end Sys2Proof.Machine
end

