-- ==== Sys2Proof/Machine/Flags.lean ====
section
/-! DEFINITION. The only flags of the block: the three sticky fault bits of STATUS (10_state.md R25, R27). No command reads them and
no arithmetic event sets one (R25; 60_exceptions.md R317). -/

namespace Sys2Proof.Machine

/-- The STATUS bit of a fault (10_state.md R27; 60_exceptions.md R311 to R314). -/
def StickyFault.mask : StickyFault → Word
  | .illegalCommand => 0x00000001
  | .configError => 0x00000002
  | .badAddress => 0x00000004

/-- The bits of STATUS that exist (10_state.md R27, R45). -/
def statusMask : Word := 0x00000007

/-- STATUS after a fault: its bit set, every other bit kept; a bit already set stays set (60_exceptions.md R316). -/
def statusRaise (f : StickyFault) (status : Word) : Word := status ||| f.mask

/-- STATUS after a host write of `v`: write-one-to-clear, bits 31:3 ignored (10_state.md R27; 20_memory.md R71). -/
def statusClear (v status : Word) : Word := status &&& ~~~(v &&& statusMask)

/-- Bit 0 `DEC` of CTRL: PLLSTEP runs the decoupling stage (10_state.md R28). -/
def decBit (ctrl : Word) : Bool := ctrl.getLsbD 0

end Sys2Proof.Machine
end

