-- ==== Sys2Proof/Machine/Ops.lean ====
section
/-! DEFINITION. The named operations over the register file: choosing one of six or four, reading and writing a register by name,
the register map (10_state.md R45), raising a fault (60_exceptions.md R310), reset (70_reset_and_hazards.md R350). -/

namespace Sys2Proof.Machine

/-- Register `i` of six. -/
def Six.get (s : Six) (i : Fin 6) : Word :=
  match i with
  | 0 => s.x0
  | 1 => s.x1
  | 2 => s.x2
  | 3 => s.x3
  | 4 => s.x4
  | 5 => s.x5

/-- Register `i` of six written. -/
def Six.set (s : Six) (i : Fin 6) (v : Word) : Six :=
  match i with
  | 0 => { s with x0 := v }
  | 1 => { s with x1 := v }
  | 2 => { s with x2 := v }
  | 3 => { s with x3 := v }
  | 4 => { s with x4 := v }
  | 5 => { s with x5 := v }

/-- Thing `i` of four. -/
def Four.get {α : Type} (s : Four α) (i : Fin 4) : α :=
  match i with
  | 0 => s.x0
  | 1 => s.x1
  | 2 => s.x2
  | 3 => s.x3

/-- Thing `i` of four replaced. -/
def Four.set {α : Type} (s : Four α) (i : Fin 4) (v : α) : Four α :=
  match i with
  | 0 => { s with x0 := v }
  | 1 => { s with x1 := v }
  | 2 => { s with x2 := v }
  | 3 => { s with x3 := v }

/-- A register of one PI instance (R33). -/
def PiRegs.get (p : PiRegs) : PiField → Word
  | .kp => p.kp
  | .ki => p.ki
  | .maxi => p.maxi
  | .integ => p.integ

/-- A register of one PI instance written (R33). -/
def PiRegs.set (p : PiRegs) (f : PiField) (v : Word) : PiRegs :=
  match f with
  | .kp => { p with kp := v }
  | .ki => { p with ki := v }
  | .maxi => { p with maxi := v }
  | .integ => { p with integ := v }

/-- A register of one term (R34). -/
def TermRegs.get (t : TermRegs) : TermField → Word
  | .alpha => t.alpha
  | .beta => t.beta
  | .cosinc => t.cosinc
  | .sininc => t.sininc
  | .kalpha => t.kalpha
  | .kbeta => t.kbeta

/-- A register of one term written (R34). -/
def TermRegs.set (t : TermRegs) (f : TermField) (v : Word) : TermRegs :=
  match f with
  | .alpha => { t with alpha := v }
  | .beta => { t with beta := v }
  | .cosinc => { t with cosinc := v }
  | .sininc => { t with sininc := v }
  | .kalpha => { t with kalpha := v }
  | .kbeta => { t with kbeta := v }

/-- The content of a register (R45). -/
def Regs.get (r : Regs) : Reg → Word
  | .cmd => r.cmd
  | .status => r.status
  | .ctrl => r.ctrl
  | .inp i => r.inp.get i
  | .out i => r.out.get i
  | .fref => r.fref
  | .fmin => r.fmin
  | .nomticks => r.nomticks
  | .lpfk => r.lpfk
  | .pi i f => (r.pi.get i).get f
  | .term j f => (r.term.get j).get f
  | .acc => r.acc
  | .err => r.err
  | .dposBar => r.dposBar
  | .qposBar => r.qposBar
  | .dnegBar => r.dnegBar
  | .qnegBar => r.qnegBar
  | .theta => r.theta
  | .sin => r.sin
  | .cos => r.cos
  | .ferr => r.ferr
  | .feff => r.feff
  | .dqD => r.dqD
  | .dqQ => r.dqQ
  | .dqnD => r.dqnD
  | .dqnQ => r.dqnQ
  | .reload => r.reload
  | .carry => r.carry

/-- The register file with one register holding `v`, every other as it was (R45). -/
def Regs.set (r : Regs) (x : Reg) (v : Word) : Regs :=
  match x with
  | .cmd => { r with cmd := v }
  | .status => { r with status := v }
  | .ctrl => { r with ctrl := v }
  | .inp i => { r with inp := r.inp.set i v }
  | .out i => { r with out := r.out.set i v }
  | .fref => { r with fref := v }
  | .fmin => { r with fmin := v }
  | .nomticks => { r with nomticks := v }
  | .lpfk => { r with lpfk := v }
  | .pi i f => { r with pi := r.pi.set i ((r.pi.get i).set f v) }
  | .term j f => { r with term := r.term.set j ((r.term.get j).set f v) }
  | .acc => { r with acc := v }
  | .err => { r with err := v }
  | .dposBar => { r with dposBar := v }
  | .qposBar => { r with qposBar := v }
  | .dnegBar => { r with dnegBar := v }
  | .qnegBar => { r with qnegBar := v }
  | .theta => { r with theta := v }
  | .sin => { r with sin := v }
  | .cos => { r with cos := v }
  | .ferr => { r with ferr := v }
  | .feff => { r with feff := v }
  | .dqD => { r with dqD := v }
  | .dqQ => { r with dqQ := v }
  | .dqnD => { r with dqnD := v }
  | .dqnQ => { r with dqnQ := v }
  | .reload => { r with reload := v }
  | .carry => { r with carry := v }

/-- The place of a field in a PI instance's 16 bytes (R33). -/
def PiField.offset : PiField → Nat
  | .kp => 0x0
  | .ki => 0x4
  | .maxi => 0x8
  | .integ => 0xC

/-- The place of a field in a term's 32 bytes (R34). -/
def TermField.offset : TermField → Nat
  | .alpha => 0x00
  | .beta => 0x04
  | .cosinc => 0x08
  | .sininc => 0x0C
  | .kalpha => 0x10
  | .kbeta => 0x14

/-- The byte offset of a register (the register map, 10_state.md R45). -/
def Reg.offset : Reg → Nat
  | .cmd => 0x000
  | .status => 0x004
  | .ctrl => 0x008
  | .inp i => 0x010 + 4 * i.val
  | .out i => 0x030 + 4 * i.val
  | .fref => 0x080
  | .fmin => 0x084
  | .nomticks => 0x088
  | .lpfk => 0x08C
  | .pi i f => 0x0C0 + 0x10 * i.val + f.offset
  | .term j f => 0x100 + 0x20 * j.val + f.offset
  | .acc => 0x180
  | .err => 0x184
  | .dposBar => 0x190
  | .qposBar => 0x194
  | .dnegBar => 0x198
  | .qnegBar => 0x19C
  | .theta => 0x1A0
  | .sin => 0x1A4
  | .cos => 0x1A8
  | .ferr => 0x1AC
  | .feff => 0x1B0
  | .dqD => 0x1B4
  | .dqQ => 0x1B8
  | .dqnD => 0x1BC
  | .dqnQ => 0x1C0
  | .reload => 0x1C4
  | .carry => 0x1C8

/-- The bits of a register that exist (the mask column of 10_state.md R45; R46). -/
def Reg.mask : Reg → Word
  | .cmd => 0xFFFFFFFF
  | .status => 0x00000007
  | .ctrl => 0x00000001
  | .inp _ => 0xFFFFFFFF
  | .out _ => 0xFFFFFFFF
  | .fref => 0x7FFFFFFF
  | .fmin => 0x7FFFFFFF
  | .nomticks => 0x0000FFFF
  | .lpfk => 0x7FFFFFFF
  | .pi _ .kp => 0xFFFFFFFF
  | .pi _ .ki => 0xFFFFFFFF
  | .pi _ .maxi => 0x7FFFFFFF
  | .pi _ .integ => 0xFFFFFFFF
  | .term _ _ => 0xFFFFFFFF
  | .acc => 0xFFFFFFFF
  | .err => 0xFFFFFFFF
  | .dposBar => 0xFFFFFFFF
  | .qposBar => 0xFFFFFFFF
  | .dnegBar => 0xFFFFFFFF
  | .qnegBar => 0xFFFFFFFF
  | .theta => 0xFFFFFFFF
  | .sin => 0xFFFFFFFF
  | .cos => 0xFFFFFFFF
  | .ferr => 0xFFFFFFFF
  | .feff => 0xFFFFFFFF
  | .dqD => 0xFFFFFFFF
  | .dqQ => 0xFFFFFFFF
  | .dqnD => 0xFFFFFFFF
  | .dqnQ => 0xFFFFFFFF
  | .reload => 0x0000FFFF
  | .carry => 0x0000FFFF

/-- The 16 registers of the PI block (R33). -/
def Reg.allPi : List Reg :=
  [0, 1, 2, 3].flatMap fun i => [.pi i .kp, .pi i .ki, .pi i .maxi, .pi i .integ]

/-- The 24 registers of the terms (R34). -/
def Reg.allTerm : List Reg :=
  [0, 1, 2, 3].flatMap fun j =>
    [.term j .alpha, .term j .beta, .term j .cosinc, .term j .sininc, .term j .kalpha, .term j .kbeta]

/-- All 76 registers, in the order of the register map (10_state.md R45). -/
def Reg.all : List Reg :=
  [.cmd, .status, .ctrl] ++ [0, 1, 2, 3, 4, 5].map .inp ++ [0, 1, 2, 3, 4, 5].map .out ++
    [.fref, .fmin, .nomticks, .lpfk] ++ Reg.allPi ++ Reg.allTerm ++
    [.acc, .err, .dposBar, .qposBar, .dnegBar, .qnegBar, .theta, .sin, .cos, .ferr, .feff] ++
    [.dqD, .dqQ, .dqnD, .dqnQ, .reload, .carry]

/-- The register at a byte offset; none where 10_state.md R45 has a reserved offset, or the offset is no multiple of 4. -/
def regAt (addr : Nat) : Option Reg := Reg.all.find? fun x => x.offset == addr

/-- The register an access of `size` bytes at `addr` reaches: only a 4-byte access at the offset of a register reaches one
(20_memory.md R71, R72, R74). -/
def accessReg (addr size : Nat) : Option Reg := if size = 4 then regAt addr else none

/-- Raising a fault, the whole of what taking an exception is on this block: the sticky bit is set and nothing else changes; no
state is saved and control goes nowhere (60_exceptions.md R310, R316, R321; 00_scope.md R12). -/
def Regs.raise (f : StickyFault) (r : Regs) : Regs := { r with status := statusRaise f r.status }

/-- A host write of `v` to STATUS clears the bits it names, the only counterpart of a return (10_state.md R27; 60_exceptions.md
R316, R322). -/
def Regs.clearFaults (v : Word) (r : Regs) : Regs := { r with status := statusClear v r.status }

/-- The host's write of `v` to a register without a side effect: the bits outside the mask are dropped (10_state.md R46). -/
def Regs.hostWrite (x : Reg) (v : Word) (r : Regs) : Regs := r.set x (v &&& x.mask)

/-- Reset of the block: every register at its reset value, whatever was there (70_reset_and_hazards.md R350 to R352;
notes/assumptions/8.md, 15.md). -/
def Regs.afterReset (_ : Regs) : Regs := Regs.reset

/-- Byte lane `k` of a word: bits 8k+7 : 8k, little-endian (20_memory.md R73). -/
def lane (w : Word) (k : Nat) : Byte := w.extractLsb' (8 * k) 8

/-- The byte at offset `addr` of the register space, on its lane (20_memory.md R73); none at a reserved offset. -/
def Regs.byteAt (r : Regs) (addr : Nat) : Option Byte :=
  (regAt (addr - addr % 4)).map fun x => lane (r.get x) (addr % 4)

/-- An instruction that completes: the register file becomes `r`; FRAC, the host's moves and the read values stay. -/
def commit (s : State) (r : Regs) : Host.Outcome State Fault Refusal := .next { s with regs := r }

end Sys2Proof.Machine
end

