-- ==== Sys2Proof/Machine/Operands.lean ====
section
/-! DEFINITION. Operands and results: every operand form of 30_encoding.md R103, R104, R108. -/

namespace Sys2Proof.Machine

/-- Operand `IN[i]`: the whole register read as a signed integer (30_encoding.md R103; 00_scope.md R10). -/
def Regs.operand (r : Regs) (i : Fin 6) : Int := s32 (r.inp.get i)

/-- Result `OUT0` written; the other result registers keep their content (30_encoding.md R104). -/
def Regs.result1 (r : Regs) (a : Int) : Regs := { r with out := { r.out with x0 := u32 a } }

/-- Results `OUT0`, `OUT1` written (30_encoding.md R104). -/
def Regs.result2 (r : Regs) (a b : Int) : Regs := { r with out := { r.out with x0 := u32 a, x1 := u32 b } }

/-- Results `OUT0` to `OUT2` written (30_encoding.md R104). -/
def Regs.result3 (r : Regs) (a b c : Int) : Regs :=
  { r with out := { r.out with x0 := u32 a, x1 := u32 b, x2 := u32 c } }

/-- Results `OUT0` to `OUT3` written (30_encoding.md R104). -/
def Regs.result4 (r : Regs) (a b c d : Int) : Regs :=
  { r with out := { r.out with x0 := u32 a, x1 := u32 b, x2 := u32 c, x3 := u32 d } }

/-- All six results written (30_encoding.md R104). -/
def Regs.result6 (r : Regs) (a b c d e f : Int) : Regs :=
  { r with out := ⟨u32 a, u32 b, u32 c, u32 d, u32 e, u32 f⟩ }

/-- Operands `IN0`, `IN1`, `IN2` as three phase quantities (30_encoding.md R108). -/
def Regs.operandAbc (r : Regs) : Abc := ⟨r.operand 0, r.operand 1, r.operand 2⟩

/-- Two consecutive operands as a Dq pair (30_encoding.md R108). -/
def Regs.operandDq (r : Regs) (i j : Fin 6) : Dq := ⟨r.operand i, r.operand j⟩

end Sys2Proof.Machine
end

