-- ==== Sys2Proof/Machine/SineTable.lean ====
section
/-! DEFINITION. The sine table ROM of 41_trig.md R161: 129 literal entries of the first quarter wave. A constant, not state
(20_memory.md R85). -/

namespace Sys2Proof.Machine

/-- Entries QT[0] to QT[31] (41_trig.md R161). -/
def quarterTable0 : List Int :=
  [0, 26352928, 52701887, 79042909, 105372028, 131685278, 157978697, 184248325,
    210490206, 236700388, 262874923, 289009871, 315101295, 341145265, 367137861, 393075166,
    418953276, 444768294, 470516330, 496193509, 521795963, 547319836, 572761285, 598116479,
    623381598, 648552838, 673626408, 698598533, 723465451, 748223418, 772868706, 797397602]

/-- Entries QT[32] to QT[63] (41_trig.md R161). -/
def quarterTable32 : List Int :=
  [821806413, 846091463, 870249095, 894275671, 918167572, 941921200, 965532978, 988999351,
    1012316784, 1035481766, 1058490808, 1081340445, 1104027237, 1126547765, 1148898640, 1171076495,
    1193077991, 1214899813, 1236538675, 1257991320, 1279254516, 1300325060, 1321199781, 1341875533,
    1362349204, 1382617710, 1402678000, 1422527051, 1442161874, 1461579514, 1480777044, 1499751576]

/-- Entries QT[64] to QT[95] (41_trig.md R161). -/
def quarterTable64 : List Int :=
  [1518500250, 1537020244, 1555308768, 1573363068, 1591180426, 1608758157, 1626093616, 1643184191,
    1660027308, 1676620432, 1692961062, 1709046739, 1724875040, 1740443581, 1755750017, 1770792044,
    1785567396, 1800073849, 1814309216, 1828271356, 1841958164, 1855367581, 1868497586, 1881346202,
    1893911494, 1906191570, 1918184581, 1929888720, 1941302225, 1952423377, 1963250501, 1973781967]

/-- Entries QT[96] to QT[127] (41_trig.md R161). -/
def quarterTable96 : List Int :=
  [1984016189, 1993951625, 2003586779, 2012920201, 2021950484, 2030676269, 2039096241, 2047209133,
    2055013723, 2062508835, 2069693342, 2076566160, 2083126254, 2089372638, 2095304370, 2100920556,
    2106220352, 2111202959, 2115867626, 2120213651, 2124240380, 2127947206, 2131333572, 2134398966,
    2137142927, 2139565043, 2141664948, 2143442326, 2144896910, 2146028480, 2146836866, 2147321946]

/-- Entries QT[128] to QT[128] (41_trig.md R161). -/
def quarterTable128 : List Int :=
  [2147483648]

/-- The table ROM: `QT[i]` = round(2^31 · sin(2πi/512)), i = 0..128, by its literals (41_trig.md R161). -/
def quarterTable : List Int :=
  quarterTable0 ++ quarterTable32 ++ quarterTable64 ++
    quarterTable96 ++ quarterTable128

/-- `QT[i]` (41_trig.md R161); no rule reads beyond entry 128. -/
def qt (i : Nat) : Int := quarterTable.getD i 0

end Sys2Proof.Machine
end

