-- ==== Sys2Proof/Machine/Trig.lean ====
section
/-! DEFINITION. The trig kernel (41_trig.md): the functions `uvec`, `rot`, `sh120p`, `sh120n`, `nharm`, and the commands UVEC, ROT,
SH120P, SH120N, NHARM. No command of this family can fail (R179). -/

namespace Sys2Proof.Machine

/-- The sine samples of the upper half turn, i = 0..256: the quarter wave and its mirror (R162). -/
def halfWave (i : Nat) : Int := if i ≤ 128 then qt i else qt (256 - i)

/-- `S(i)`, the sine sample of knot `i` modulo 512 (R162). -/
def sinKnot (i : Nat) : Int :=
  if i % 512 ≤ 256 then halfWave (i % 512) else -halfWave (i % 512 - 256)

/-- `C(i) = S(i + 128)`, the cosine sample of knot `i` modulo 512 (R162). -/
def cosKnot (i : Nat) : Int := sinKnot (i + 128)

/-- `dS(i)`, the derivative of the sine at knot `i` for one table step (R164). -/
def sinSlope (i : Nat) : Int := hk * cosKnot i / 2 ^ 32

/-- `dC(i)`, the derivative of the cosine at knot `i` for one table step (R164). -/
def cosSlope (i : Nat) : Int := -hk * sinKnot i / 2 ^ 32

/-- The cubic Hermite interpolant in Horner form on integers, `t` in 0 .. 2^23 − 1 (R165). -/
def herm (p0 p1 m0 m1 t : Int) : Int :=
  let c2 := 3 * (p1 - p0) - 2 * m0 - m1
  let c3 := 2 * (p0 - p1) + m0 + m1
  let u3 := c3 * t / 2 ^ 23
  let u2 := (c2 + u3) * t / 2 ^ 23
  let u1 := (m0 + u2) * t / 2 ^ 23
  sat32 (p0 + u1)

/-- `uvec(theta)` (R166): floor index `u[31:23]`, fraction `u[22:0]`, one interpolation for each component. -/
def uvec (theta : Int) : SinCos :=
  let u := (u32 theta).toNat
  let i := u / 2 ^ 23
  let t : Int := (u % 2 ^ 23 : Nat)
  let j := (i + 1) % 512
  { sin := herm (sinKnot i) (sinKnot j) (sinSlope i) (sinSlope j) t
    cos := herm (cosKnot i) (cosKnot j) (cosSlope i) (cosSlope j) t }

/-- `rot(x, y, c, s)`: the pair (x, y) rotated by the angle of (c, s) (R171). -/
def rot (x y c s : Int) : XY :=
  { x := ssub (smul31 x c) (smul31 y s)
    y := sadd (smul31 x s) (smul31 y c) }

/-- `sh120p(s, c)`: the vector advanced by 120 degrees (R173). -/
def sh120p (s c : Int) : SinCos :=
  let hs := asr s 1
  let hc := asr c 1
  let rs := smul31 s kSqrt32
  let rc := smul31 c kSqrt32
  { sin := ssub rc hs
    cos := ssub (ssub 0 hc) rs }

/-- `sh120n(s, c)`: the vector set back by 120 degrees (R173). -/
def sh120n (s c : Int) : SinCos :=
  let hs := asr s 1
  let hc := asr c 1
  let rs := smul31 s kSqrt32
  let rc := smul31 c kSqrt32
  { sin := ssub (ssub 0 hs) rc
    cos := ssub rs hc }

/-- `nharm(c1, s1, c2, s2, cstep)`: harmonic N from harmonics N − 1 and N − 2 (R176). -/
def nharm (c1 s1 c2 s2 cstep : Int) : SinCos :=
  { cos := sat32 (dmul30 cstep c1 - c2)
    sin := sat32 (dmul30 cstep s1 - s2) }

/-- The register file after UVEC (R170). -/
def Regs.uvecCmd (r : Regs) : Regs :=
  let v := uvec (r.operand 0)
  r.result2 v.sin v.cos

/-- The register file after ROT (R172): operands x, y, cos, sin in this order (00_scope.md R14). -/
def Regs.rotCmd (r : Regs) : Regs :=
  let p := rot (r.operand 0) (r.operand 1) (r.operand 2) (r.operand 3)
  r.result2 p.x p.y

/-- The register file after SH120P (R174). -/
def Regs.sh120pCmd (r : Regs) : Regs :=
  let v := sh120p (r.operand 0) (r.operand 1)
  r.result2 v.sin v.cos

/-- The register file after SH120N (R175). -/
def Regs.sh120nCmd (r : Regs) : Regs :=
  let v := sh120n (r.operand 0) (r.operand 1)
  r.result2 v.sin v.cos

/-- The register file after NHARM (R177): results cos first (00_scope.md R14). -/
def Regs.nharmCmd (r : Regs) : Regs :=
  let v := nharm (r.operand 0) (r.operand 1) (r.operand 2) (r.operand 3) (r.operand 4)
  r.result2 v.cos v.sin

/-- UVEC (R170). -/
def execUvec (s : State) : Host.Outcome State Fault Refusal := commit s s.regs.uvecCmd

/-- ROT (R172). -/
def execRot (s : State) : Host.Outcome State Fault Refusal := commit s s.regs.rotCmd

/-- SH120P (R174). -/
def execSh120p (s : State) : Host.Outcome State Fault Refusal := commit s s.regs.sh120pCmd

/-- SH120N (R175). -/
def execSh120n (s : State) : Host.Outcome State Fault Refusal := commit s s.regs.sh120nCmd

/-- NHARM (R177). -/
def execNharm (s : State) : Host.Outcome State Fault Refusal := commit s s.regs.nharmCmd

end Sys2Proof.Machine
end

