-- ==== Sys2Proof/Machine/Bank.lean ====
section
/-! DEFINITION. The harmonic oscillator bank (44_bank.md): one sample of the four terms, and the command BANKSTEP. -/

namespace Sys2Proof.Machine

/-- The reconstructed estimate: the terms' alphas summed from term 0 upward, saturating after every addition (R236, R238). -/
def bankEstimate (t : Four TermRegs) : Int :=
  sadd (sadd (sadd (sadd 0 (s32 t.x0.alpha)) (s32 t.x1.alpha)) (s32 t.x2.alpha)) (s32 t.x3.alpha)

/-- The error of a sample `m` against the estimate of the terms as they stand (R236). -/
def bankError (t : Four TermRegs) (m : Int) : Int := ssub m (bankEstimate t)

/-- One term's update from its own old state and the common error (R237). -/
def termStep (frac : Config.Frac) (t : TermRegs) (err : Int) : TermRegs :=
  let p := rot (s32 t.alpha) (s32 t.beta) (s32 t.cosinc) (s32 t.sininc)
  { t with
    alpha := u32 (sadd p.x (smulF frac (s32 t.kalpha) err))
    beta := u32 (sadd p.y (smulF frac (s32 t.kbeta) err)) }

/-- The four terms after one sample, all with the same error (R237). -/
def bankTerms (frac : Config.Frac) (t : Four TermRegs) (err : Int) : Four TermRegs :=
  ⟨termStep frac t.x0 err, termStep frac t.x1 err, termStep frac t.x2 err, termStep frac t.x3 err⟩

/-- One sample of the bank in the register file: the terms, `ACC` and `ERR` (R236 to R238). -/
def Regs.bankSample (r : Regs) (frac : Config.Frac) (m : Int) : Regs :=
  let err := bankError r.term m
  let term := bankTerms frac r.term err
  { r with
    term := term
    acc := u32 (bankEstimate term)
    err := u32 err }

/-- The register file after BANKSTEP (R239). -/
def Regs.bankstepCmd (frac : Config.Frac) (r : Regs) : Regs :=
  let r' := r.bankSample frac (r.operand 0)
  r'.result4 (s32 r'.term.x0.alpha) (s32 r'.term.x0.beta) (s32 r'.acc) (s32 r'.err)

/-- BANKSTEP (R239). -/
def execBankstep (s : State) : Host.Outcome State Fault Refusal := commit s (s.regs.bankstepCmd s.frac)

end Sys2Proof.Machine
end

