-- ==== Sys2Proof/Machine/PiController.lean ====
section
/-! DEFINITION. The PI controller with anti-windup (43_pi.md): `pi_update` and the command PIUPD. -/

namespace Sys2Proof.Machine

/-- What one update of a PI instance gives: the instance after it, and the controller's output. -/
structure PiResult where
  regs : PiRegs
  output : Int
deriving DecidableEq, Repr

/-- The integral after one update: accumulated with saturation, then clamped to [−MAXI, MAXI] (43_pi.md R220). -/
def piIntegral (frac : Config.Frac) (p : PiRegs) (e : Int) : Int :=
  clamp (sadd (s32 p.integ) (smulF frac (s32 p.ki) e)) (-uns p.maxi) (uns p.maxi)

/-- `pi_update` on one instance and a signed error (43_pi.md R220): accumulate, clamp, then the output from the clamped integral. -/
def piUpdate (frac : Config.Frac) (p : PiRegs) (e : Int) : PiResult :=
  { regs := { p with integ := u32 (piIntegral frac p e) }
    output := sadd (smulF frac (s32 p.kp) e) (piIntegral frac p e) }

/-- `pi_update(i, e)` in the register file: instance `i` updated, every other register as it was (43_pi.md R220). -/
def Regs.piStep (r : Regs) (frac : Config.Frac) (i : Fin 4) (e : Int) : Regs :=
  { r with pi := r.pi.set i (piUpdate frac (r.pi.get i) e).regs }

/-- The output of `pi_update(i, e)` (43_pi.md R220). -/
def Regs.piOutput (r : Regs) (frac : Config.Frac) (i : Fin 4) (e : Int) : Int := (piUpdate frac (r.pi.get i) e).output

/-- The register file after PIUPD.i (43_pi.md R222). -/
def Regs.piupdCmd (frac : Config.Frac) (sel : Fin 4) (r : Regs) : Regs :=
  (r.piStep frac sel (r.operand 0)).result1 (r.piOutput frac sel (r.operand 0))

/-- PIUPD.i (43_pi.md R222). -/
def execPiupd (sel : Fin 4) (s : State) : Host.Outcome State Fault Refusal := commit s (s.regs.piupdCmd s.frac sel)

end Sys2Proof.Machine
end

