-- ==== Sys2Proof/Machine/Transforms.lean ====
section
/-! DEFINITION. The reference-frame transforms (42_transforms.md): one scaling convention, amplitude-invariant 2/3 (R190). No command
of this family can fail (R209). -/

namespace Sys2Proof.Machine

/-- `clarke_alpha` (R191): three products combined left to right. -/
def clarkeAlpha (v : Abc) : Int := ssub (ssub (smul31 v.a k23) (smul31 v.b k13)) (smul31 v.c k13)

/-- `clarke_beta` (R191): the difference saturates before the one product. -/
def clarkeBeta (v : Abc) : Int := smul31 (ssub v.b v.c) kInvSqrt3

/-- `clarke_zero` (R191): the sum saturates left to right before the one product. -/
def clarkeZero (v : Abc) : Int := smul31 (sadd (sadd v.a v.b) v.c) k13

/-- `iclarke0(al, be, z)` (R194). -/
def iclarke0 (al be z : Int) : Abc :=
  let ha := asr al 1
  let rb := smul31 be kSqrt32
  { a := sadd al z
    b := sadd (ssub rb ha) z
    c := sadd (ssub (ssub 0 ha) rb) z }

/-- `iclarke(al, be)` (R194). -/
def iclarke (al be : Int) : Abc :=
  let ha := asr al 1
  let rb := smul31 be kSqrt32
  { a := al
    b := ssub rb ha
    c := ssub (ssub 0 ha) rb }

/-- `park(al, be, s, c)` (R197). -/
def park (al be s c : Int) : Dq :=
  { d := ssub (smul31 al s) (smul31 be c)
    q := sadd (smul31 al c) (smul31 be s) }

/-- `ipark(d, q, s, c)` (R199). -/
def ipark (d q s c : Int) : AlphaBeta :=
  { alpha := sadd (smul31 d s) (smul31 q c)
    beta := ssub (smul31 q s) (smul31 d c) }

/-- `abc2dq(a, b, c, s, co)` (R201): products with the three shifted pairs, saturating sum, then 2/3. -/
def abc2dq (v : Abc) (s co : Int) : Dq :=
  let m := sh120n s co
  let p := sh120p s co
  { d := smul31 (sadd (sadd (smul31 v.a s) (smul31 v.b m.sin)) (smul31 v.c p.sin)) k23
    q := smul31 (sadd (sadd (smul31 v.a co) (smul31 v.b m.cos)) (smul31 v.c p.cos)) k23 }

/-- `rotp(d, q)`: a Dq pair turned by +120 degrees (R203). -/
def rotp (v : Dq) : Dq :=
  { d := ssub (ssub 0 (asr v.d 1)) (smul31 v.q kSqrt32)
    q := ssub (smul31 v.d kSqrt32) (asr v.q 1) }

/-- `rotn(d, q)`: a Dq pair turned by −120 degrees (R203). -/
def rotn (v : Dq) : Dq :=
  { d := ssub (smul31 v.q kSqrt32) (asr v.d 1)
    q := ssub (ssub 0 (smul31 v.d kSqrt32)) (asr v.q 1) }

/-- `add3(x, y, z)` (R203). -/
def add3 (x y z : Int) : Int := sadd (sadd x y) z

/-- `third(x, y, z)` (R203). -/
def third (x y z : Int) : Int := smul31 (add3 x y z) k13

/-- `add3` on both components of three Dq pairs (R206). -/
def Dq.add3 (x y z : Dq) : Dq := ⟨Machine.add3 x.d y.d z.d, Machine.add3 x.q y.q z.q⟩

/-- `third` on both components of three Dq pairs (R204). -/
def Dq.third (x y z : Dq) : Dq := ⟨Machine.third x.d y.d z.d, Machine.third x.q y.q z.q⟩

/-- Three Dq pairs: positive, negative and zero sequence (R204). -/
structure Seq where
  pos : Dq
  neg : Dq
  zero : Dq
deriving DecidableEq, Repr

/-- Three Dq pairs: lines a, b, c (R206). -/
structure Lines where
  a : Dq
  b : Dq
  c : Dq
deriving DecidableEq, Repr

/-- `l2seq(A, B, C)` (R204). -/
def l2seq (v : Lines) : Seq :=
  { pos := Dq.third v.a (rotp v.b) (rotn v.c)
    neg := Dq.third v.a (rotn v.b) (rotp v.c)
    zero := Dq.third v.a v.b v.c }

/-- `seq2l(P, N, Z)` (R206). -/
def seq2l (v : Seq) : Lines :=
  { a := Dq.add3 v.pos v.neg v.zero
    b := Dq.add3 (rotn v.pos) (rotp v.neg) v.zero
    c := Dq.add3 (rotp v.pos) (rotn v.neg) v.zero }

/-- The register file after CLARKE (R192): `OUT2` is not written. -/
def Regs.clarkeCmd (r : Regs) : Regs := r.result2 (clarkeAlpha r.operandAbc) (clarkeBeta r.operandAbc)

/-- The register file after CLARKE0 (R193). -/
def Regs.clarke0Cmd (r : Regs) : Regs :=
  r.result3 (clarkeAlpha r.operandAbc) (clarkeBeta r.operandAbc) (clarkeZero r.operandAbc)

/-- The register file after ICLARKE (R195): `IN2` is ignored. -/
def Regs.iclarkeCmd (r : Regs) : Regs :=
  let v := iclarke (r.operand 0) (r.operand 1)
  r.result3 v.a v.b v.c

/-- The register file after ICLARKE0 (R196). -/
def Regs.iclarke0Cmd (r : Regs) : Regs :=
  let v := iclarke0 (r.operand 0) (r.operand 1) (r.operand 2)
  r.result3 v.a v.b v.c

/-- The register file after PARK (R198). -/
def Regs.parkCmd (r : Regs) : Regs :=
  let v := park (r.operand 0) (r.operand 1) (r.operand 2) (r.operand 3)
  r.result2 v.d v.q

/-- The register file after IPARK (R200). -/
def Regs.iparkCmd (r : Regs) : Regs :=
  let v := ipark (r.operand 0) (r.operand 1) (r.operand 2) (r.operand 3)
  r.result2 v.alpha v.beta

/-- The register file after ABC2DQ (R202). -/
def Regs.abc2dqCmd (r : Regs) : Regs :=
  let v := abc2dq r.operandAbc (r.operand 3) (r.operand 4)
  r.result2 v.d v.q

/-- The register file after L2SEQ (R205). -/
def Regs.l2seqCmd (r : Regs) : Regs :=
  let v := l2seq ⟨r.operandDq 0 1, r.operandDq 2 3, r.operandDq 4 5⟩
  r.result6 v.pos.d v.pos.q v.neg.d v.neg.q v.zero.d v.zero.q

/-- The register file after SEQ2L (R207). -/
def Regs.seq2lCmd (r : Regs) : Regs :=
  let v := seq2l ⟨r.operandDq 0 1, r.operandDq 2 3, r.operandDq 4 5⟩
  r.result6 v.a.d v.a.q v.b.d v.b.q v.c.d v.c.q

/-- CLARKE (R192). -/
def execClarke (s : State) : Host.Outcome State Fault Refusal := commit s s.regs.clarkeCmd

/-- CLARKE0 (R193). -/
def execClarke0 (s : State) : Host.Outcome State Fault Refusal := commit s s.regs.clarke0Cmd

/-- ICLARKE (R195). -/
def execIclarke (s : State) : Host.Outcome State Fault Refusal := commit s s.regs.iclarkeCmd

/-- ICLARKE0 (R196). -/
def execIclarke0 (s : State) : Host.Outcome State Fault Refusal := commit s s.regs.iclarke0Cmd

/-- PARK (R198). -/
def execPark (s : State) : Host.Outcome State Fault Refusal := commit s s.regs.parkCmd

/-- IPARK (R200). -/
def execIpark (s : State) : Host.Outcome State Fault Refusal := commit s s.regs.iparkCmd

/-- ABC2DQ (R202). -/
def execAbc2dq (s : State) : Host.Outcome State Fault Refusal := commit s s.regs.abc2dqCmd

/-- L2SEQ (R205). -/
def execL2seq (s : State) : Host.Outcome State Fault Refusal := commit s s.regs.l2seqCmd

/-- SEQ2L (R207). -/
def execSeq2l (s : State) : Host.Outcome State Fault Refusal := commit s s.regs.seq2lCmd

end Sys2Proof.Machine
end

