-- ==== Sys2Proof/Machine/Pll.lean ====
section
/-! DEFINITION. The PLL and its decoupling filters (45_pll.md): the commands PLLINIT and PLLSTEP, PLLSTEP as its seven numbered steps
in order, each seeing what the earlier ones wrote (R252, R269). -/

namespace Sys2Proof.Machine

/-- PLLINIT's configuration test: a zero `FREF`, `FMIN` or `NOMTICKS` (R251). -/
def Regs.configBad (r : Regs) : Bool := r.fref == 0 || r.fmin == 0 || r.nomticks == 0

/-- Term `j` after construction: the increment of its harmonic order times `FREF`, the rotating state cleared (R251). -/
def termInit (fref : Word) (j : Fin 4) (t : TermRegs) : TermRegs :=
  let v := uvec (wrap32 (Config.order j * uns fref))
  { t with
    alpha := 0
    beta := 0
    cosinc := u32 v.cos
    sininc := u32 v.sin }

/-- The register file after a PLLINIT that accepts its configuration (R251). -/
def Regs.pllConstruct (r : Regs) : Regs :=
  { r with
    term := ⟨termInit r.fref 0 r.term.x0, termInit r.fref 1 r.term.x1,
      termInit r.fref 2 r.term.x2, termInit r.fref 3 r.term.x3⟩
    acc := 0
    err := 0
    dposBar := 0
    qposBar := 0
    dnegBar := 0
    qnegBar := 0
    theta := 0
    sin := 0
    cos := u32 one
    pi := { r.pi with x0 := { r.pi.x0 with integ := 0 }, x1 := { r.pi.x1 with integ := 0 } }
    ferr := 0
    feff := r.fref
    dqD := 0
    dqQ := 0
    dqnD := 0
    dqnQ := 0
    reload := r.nomticks
    carry := 0 }

/-- The register file after PLLINIT: `ConfigError` and nothing else, or the construction (R251; 60_exceptions.md R312). -/
def Regs.pllinitCmd (r : Regs) : Regs := if r.configBad then r.raise .configError else r.pllConstruct

/-- `lpf(y, x)` with coefficient `k` (R259). -/
def lpf (k y x : Int) : Int := sadd y (smul31 (ssub x y) k)

/-- Steps R253 and R254: the Clarke alpha of the sample drives the bank. -/
def Regs.pllBank (r : Regs) (frac : Config.Frac) : Regs := r.bankSample frac (clarkeAlpha r.operandAbc)

/-- R255: the fundamental term against the current (sin, cos). -/
def Regs.dqPos (r : Regs) : Dq := park (s32 r.term.x0.alpha) (s32 r.term.x0.beta) (s32 r.sin) (s32 r.cos)

/-- R257: the fundamental term against −theta. -/
def Regs.dqNeg (r : Regs) : Dq :=
  park (s32 r.term.x0.alpha) (s32 r.term.x0.beta) (ssub 0 (s32 r.sin)) (s32 r.cos)

/-- R257: the unit vector of the doubled phase, by the recursion at N = 2 from harmonic 0 = (ONE, 0) (41_trig.md R178). -/
def Regs.doubled (r : Regs) : SinCos := nharm (s32 r.cos) (s32 r.sin) one 0 (s32 r.cos)

/-- R258: the corrected ("hat") positive-sequence pair, from the bars as they stand. -/
def Regs.dqPosHat (r : Regs) : Dq :=
  { d := ssub (ssub r.dqPos.d (smul31 r.doubled.cos (s32 r.dnegBar))) (smul31 r.doubled.sin (s32 r.qnegBar))
    q := ssub (sadd r.dqPos.q (smul31 r.doubled.sin (s32 r.dnegBar))) (smul31 r.doubled.cos (s32 r.qnegBar)) }

/-- R258: the corrected ("hat") negative-sequence pair, from the bars as they stand. -/
def Regs.dqNegHat (r : Regs) : Dq :=
  { d := sadd (ssub r.dqNeg.d (smul31 r.doubled.cos (s32 r.dposBar))) (smul31 r.doubled.sin (s32 r.qposBar))
    q := ssub (ssub r.dqNeg.q (smul31 r.doubled.sin (s32 r.dposBar))) (smul31 r.doubled.cos (s32 r.qposBar)) }

/-- R257 to R261, the decoupling stage: the four corrections from the old bars, the bars filtered, the corrected pairs handed on. -/
def Regs.pllDecouple (r : Regs) : Regs :=
  let k := uns r.lpfk
  { r with
    dposBar := u32 (lpf k (s32 r.dposBar) r.dqPosHat.d)
    qposBar := u32 (lpf k (s32 r.qposBar) r.dqPosHat.q)
    dnegBar := u32 (lpf k (s32 r.dnegBar) r.dqNegHat.d)
    qnegBar := u32 (lpf k (s32 r.qnegBar) r.dqNegHat.q)
    dqD := u32 r.dqPosHat.d
    dqQ := u32 r.dqPosHat.q
    dqnD := u32 r.dqNegHat.d
    dqnQ := u32 r.dqNegHat.q }

/-- R256 with DEC = 0: the plain Park pair is handed on; bars and negative sequence keep their values. -/
def Regs.pllPlain (r : Regs) : Regs := { r with dqD := u32 r.dqPos.d, dqQ := u32 r.dqPos.q }

/-- Step 2 (R255, R256): the Dq of the phase loop, through the decoupling stage when `CTRL.DEC` is 1. -/
def Regs.pllDq (r : Regs) : Regs := if decBit r.ctrl then r.pllDecouple else r.pllPlain

/-- Step 3 (R262): the phase loop, `FERR`, and the wrapping advance of `THETA`, summed exactly and wrapped once. -/
def Regs.pllPhase (r : Regs) (frac : Config.Frac) : Regs :=
  let ferr := r.piOutput frac 0 (s32 r.dqQ)
  { r.piStep frac 0 (s32 r.dqQ) with
    ferr := u32 ferr
    theta := u32 (wrap32 (s32 r.theta + uns r.fref + ferr)) }

/-- Step 4 (R264): `SIN`, `COS` of the new `THETA`. -/
def Regs.pllUnit (r : Regs) : Regs :=
  let v := uvec (s32 r.theta)
  { r with sin := u32 v.sin, cos := u32 v.cos }

/-- Step 5 (R265): the clock loop and `FEFF`, saturating. -/
def Regs.pllClock (r : Regs) (frac : Config.Frac) : Regs :=
  { r.piStep frac 1 (s32 r.ferr) with feff := u32 (sadd (uns r.fref) (r.piOutput frac 1 (s32 r.ferr))) }

/-- `fdiv`, the guarded divisor of step 6 (R266): at least 1, whatever the registers hold (40_arith_primitives.md R146). -/
def Regs.reloadDivisor (r : Regs) : Int := max (max (s32 r.feff) (uns r.fmin)) 1

/-- `Q` of step 6 (R266): the nominal ticks scaled by fref / fdiv, with 16 fractional bits. -/
def Regs.reloadQuotient (r : Regs) : Int :=
  uns r.nomticks * uns r.fref * 2 ^ Config.tickFrac / r.reloadDivisor

/-- Steps 6 and 7 (R266, R267): integer ticks and fraction, the carry of at least one full tick moved into the reload, the reload
saturated at 16 bits. -/
def Regs.pllReload (r : Regs) : Regs :=
  let ticks := r.reloadQuotient / 65536
  let cy := uns r.carry + r.reloadQuotient % 65536
  if 65536 ≤ cy then { r with carry := u32 (cy - 65536), reload := u32 (min (ticks + 1) 65535) }
  else { r with carry := u32 cy, reload := u32 (min ticks 65535) }

/-- R268: the six results, all new values. -/
def Regs.pllResults (r : Regs) : Regs :=
  r.result6 (s32 r.theta) (s32 r.feff) (s32 r.sin) (s32 r.cos) (s32 r.reload) (s32 r.ferr)

/-- The register file after PLLSTEP: the seven steps in order (R252, R269). -/
def Regs.pllstepCmd (frac : Config.Frac) (r : Regs) : Regs :=
  (((r.pllBank frac).pllDq.pllPhase frac).pllUnit.pllClock frac).pllReload.pllResults

/-- PLLINIT (R251). -/
def execPllinit (s : State) : Host.Outcome State Fault Refusal := commit s s.regs.pllinitCmd

/-- PLLSTEP (R252). -/
def execPllstep (s : State) : Host.Outcome State Fault Refusal := commit s (s.regs.pllstepCmd s.frac)

end Sys2Proof.Machine
end

