-- ==== Sys2Proof/Machine/System.lean ====
section
/-! DEFINITION. The system commands (46_system.md): NOP and SRST. -/

namespace Sys2Proof.Machine

/-- NOP (R291): `CMD` already holds the written word 0, and nothing else changes. -/
def execNop (s : State) : Host.Outcome State Fault Refusal := commit s s.regs

/-- SRST (R293): every register takes its reset value, `CMD` and STATUS among them. -/
def execSrst (s : State) : Host.Outcome State Fault Refusal := commit s s.regs.afterReset

end Sys2Proof.Machine
end

