-- ==== Sys2Proof/Machine/Dispatch.lean ====
section
/-! DEFINITION. The dispatch: one arm for each row of the opcode table (30_encoding.md R105, R109). -/

namespace Sys2Proof.Machine

def exec (i : Instr) (s : State) : Host.Outcome State Fault Refusal :=
  match i with
  | .nop => Sys2Proof.Machine.execNop s
  | .uvec => Sys2Proof.Machine.execUvec s
  | .rot => Sys2Proof.Machine.execRot s
  | .sh120p => Sys2Proof.Machine.execSh120p s
  | .sh120n => Sys2Proof.Machine.execSh120n s
  | .nharm => Sys2Proof.Machine.execNharm s
  | .clarke => Sys2Proof.Machine.execClarke s
  | .clarke0 => Sys2Proof.Machine.execClarke0 s
  | .iclarke => Sys2Proof.Machine.execIclarke s
  | .iclarke0 => Sys2Proof.Machine.execIclarke0 s
  | .park => Sys2Proof.Machine.execPark s
  | .ipark => Sys2Proof.Machine.execIpark s
  | .abc2dq => Sys2Proof.Machine.execAbc2dq s
  | .l2seq => Sys2Proof.Machine.execL2seq s
  | .seq2l => Sys2Proof.Machine.execSeq2l s
  | .piupd sel => Sys2Proof.Machine.execPiupd sel s
  | .bankstep => Sys2Proof.Machine.execBankstep s
  | .pllinit => Sys2Proof.Machine.execPllinit s
  | .pllstep => Sys2Proof.Machine.execPllstep s
  | .srst => Sys2Proof.Machine.execSrst s

end Sys2Proof.Machine
end

