-- ==== Sys2Proof/Machine/Bus.lean ====
section
/-! DEFINITION. The bus: the host's reads and writes of the register space (20_memory.md R71), and the execution of a command word
(30_encoding.md R100, R105). A step is one access, complete before the next (R76, R80). -/

namespace Sys2Proof.Machine

/-- `execute(w)` (30_encoding.md R105): store the word in `CMD`, decode it, perform the command; a word that is none raises
IllegalCommand and changes nothing else (60_exceptions.md R311; notes/assumptions/10.md). -/
def executeWord (w : Word) (s : State) : Host.Outcome State Fault Refusal :=
  match decode w with
  | .ok i => exec i { s with regs := { s.regs with cmd := w } }
  | .error _ => commit s ({ s.regs with cmd := w }.raise .illegalCommand)

/-- The value a read of a register returns, kept for the host (46_system.md R298). -/
def State.logRead (s : State) (v : Word) : State := { s with reads := s.reads ++ [v] }

/-- A bad access: BadAddress, nothing read or written (60_exceptions.md R313). -/
def State.badAccess (s : State) : State := { s with regs := s.regs.raise .badAddress }

/-- `MemRead(addr, size)` inside the block (20_memory.md R71): a register's content without a side effect, or 0 and BadAddress. -/
def busRead (addr size : Nat) (s : State) : Host.Outcome State Fault Refusal :=
  match accessReg addr size with
  | some x => .next (s.logRead (s.regs.get x))
  | none => .next (s.badAccess.logRead 0)

/-- `MemWrite(addr, size, v)` inside the block (20_memory.md R71): `CMD` executes, STATUS clears, every other register stores the
bits of its mask; or BadAddress and nothing written. -/
def busWrite (addr size : Nat) (v : Word) (s : State) : Host.Outcome State Fault Refusal :=
  match accessReg addr size with
  | some .cmd => executeWord v s
  | some .status => commit s (s.regs.clearFaults v)
  | some x => commit s (s.regs.hostWrite x v)
  | none => .next s.badAccess

/-- One move of the host (46_system.md R299). An access whose offset the block does not decode never reaches it
(20_memory.md R71, R78): the model stops there (notes/assumptions/4.md, 5.md). -/
def hostMove (m : HostMove) (s : State) : Host.Outcome State Fault Refusal :=
  match m with
  | .read addr size => if inBlock addr then busRead addr size s else .fault (.outsideBlock addr)
  | .write addr size v => if inBlock addr then busWrite addr size v s else .fault (.outsideBlock addr)
  | .reset => commit s s.regs.afterReset

/-- The next thing that happens: the oldest host move waiting, or nothing at all, for between two accesses the block does nothing
(46_system.md R298; notes/assumptions/2.md). -/
def nextMove (s : State) : Host.Outcome State Fault Refusal :=
  match s.pending with
  | [] => .next s
  | m :: rest => hostMove m { s with pending := rest }

/-- The bus write that issues the command word `w` (30_encoding.md R100), put first among the moves that wait. -/
def State.issueWord (s : State) (w : Word) : State := { s with pending := .write 0x000 4 w :: s.pending }

end Sys2Proof.Machine
end

