-- ==== Sys2Proof/Machine/Step.lean ====
section
/-! DEFINITION. One step of the machine: one move of the host, taken from the moves that wait. -/

namespace Sys2Proof.Machine

/-- One step: the block has no program counter and fetches nothing (10_state.md R24); what it does next is what the host does
next (46_system.md R298). -/
def step (s : State) : Host.Outcome State Fault Refusal := nextMove s

/-- `s` with the command of the table's bits `w` as the host's next move, a 4-byte write to `CMD` (30_encoding.md R100;
notes/assumptions/3.md). -/
def State.withFetchWord (s : State) (nbits w : Nat) : State := s.issueWord (tableWord nbits w)

end Sys2Proof.Machine
end

