-- ==== Sys2Proof/Machine/Script.lean ====
section
/-! DEFINITION. The notation of host programs (30_encoding.md R110, R111, R112): each line as the host moves it stands for. -/

namespace Sys2Proof.Machine

/-- `WR reg, value` (R110). -/
def wr (x : Reg) (v : Word) : List HostMove := [.write x.offset 4 v]

/-- `RD reg` (R110). -/
def rd (x : Reg) : List HostMove := [.read x.offset 4]

/-- `CMD MNEMONIC`, `CMD PIUPD.i` (R110). -/
def cmd (i : Instr) : List HostMove := [.write Reg.cmd.offset 4 (encode i)]

/-- `WRA offset, n, value` (R110). -/
def wra (offset n : Nat) (v : Word) : List HostMove := [.write offset n v]

/-- `RDA offset, n` (R110). -/
def rda (offset n : Nat) : List HostMove := [.read offset n]

/-- `CLRSTAT` (R111). -/
def clrstat : List HostMove := wr .status 0x00000007

/-- `LD3 a, b, c` (R111). -/
def ld3 (a b c : Word) : List HostMove := wr (.inp 0) a ++ wr (.inp 1) b ++ wr (.inp 2) c

/-- `STEP a, b, c` (R111). -/
def stepSample (a b c : Word) : List HostMove := ld3 a b c ++ cmd .pllstep

/-- `DECON` (R111). -/
def decOn : List HostMove := wr .ctrl 0x00000001

/-- `DECOFF` (R111). -/
def decOff : List HostMove := wr .ctrl 0x00000000

/-- `CMD PIUPD` without a suffix (R111). -/
def cmdPiupd : List HostMove := cmd (.piupd 0)

/-- A run's list of accesses given to a start state (46_system.md R298), after the moves that already wait. -/
def State.withMoves (s : State) (ms : List HostMove) : State := { s with pending := s.pending ++ ms }

end Sys2Proof.Machine
end

