-- ==== Sys2Proof/Safety.lean ====
section
/-! DEFINITION. What a good state and a good run are, in the terms the claims use: masks respected, (SIN, COS) coherent with THETA,
PI integrals within their clamp, every host move inside the block; and what it is to change only named registers. -/

namespace Sys2Proof.Machine

/-- No register holds a bit outside its mask (10_state.md R46). -/
def Regs.Masked (r : Regs) : Prop := ∀ x : Reg, r.get x &&& x.mask = r.get x

/-- (`SIN`, `COS`) is the unit vector of `THETA` (10_state.md R38, 70_reset_and_hazards.md R367). -/
abbrev Regs.Coherent (r : Regs) : Prop :=
  r.sin = u32 (uvec (s32 r.theta)).sin ∧ r.cos = u32 (uvec (s32 r.theta)).cos

/-- The integral of an instance lies within [−MAXI, MAXI] (43_pi.md R221). -/
abbrev PiRegs.Bounded (p : PiRegs) : Prop := -uns p.maxi ≤ s32 p.integ ∧ s32 p.integ ≤ uns p.maxi

/-- Every instance's integral lies within its clamp (43_pi.md R221). -/
abbrev Regs.PiBounded (r : Regs) : Prop := ∀ i : Fin 4, (r.pi.get i).Bounded

/-- `CARRY` is strictly below one tick (10_state.md R44). -/
abbrev Regs.CarryBelowTick (r : Regs) : Prop := r.carry.toNat < 65536

/-- Every move that waits reaches the block (46_system.md R299). -/
abbrev State.InBlock (s : State) : Prop := ∀ m ∈ s.pending, m.wf = true

/-- `t` differs from `s` at most in the named registers: no other register, not FRAC, no host move, no value read. -/
def OnlyChanges (xs : List Reg) (s t : State) : Prop :=
  t.frac = s.frac ∧ t.pending = s.pending ∧ t.reads = s.reads ∧ ∀ x : Reg, x ∉ xs → t.regs.get x = s.regs.get x

/-- The offsets that 10_state.md R45 lists as reserved, written out from its rows. -/
def reservedOffset (a : Nat) : Bool :=
  a % 4 == 0 &&
    (a == 0x00C || a == 0x028 || a == 0x02C || (0x048 ≤ a && a ≤ 0x07C) || (0x090 ≤ a && a ≤ 0x0BC) ||
      a == 0x118 || a == 0x11C || a == 0x138 || a == 0x13C || a == 0x158 || a == 0x15C || a == 0x178 || a == 0x17C ||
      a == 0x188 || a == 0x18C || (0x1CC ≤ a && a ≤ 0x1FC))

/-- The registers that no command reads: faults, the last word, results, and the bank's published values (46_system.md R297;
10_state.md R25, R35). -/
def Reg.isOutput : Reg → Bool
  | .cmd => true
  | .status => true
  | .out _ => true
  | .acc => true
  | .err => true
  | _ => false

/-- The registers that only the host and a reset write: operands, configuration and gains (10_state.md R45; 46_system.md R293). -/
def Reg.isConfig : Reg → Bool
  | .ctrl => true
  | .inp _ => true
  | .fref => true
  | .fmin => true
  | .nomticks => true
  | .lpfk => true
  | .pi _ .kp => true
  | .pi _ .ki => true
  | .pi _ .maxi => true
  | .term _ .kalpha => true
  | .term _ .kbeta => true
  | _ => false

/-- A three-phase sample written to `IN0`, `IN1`, `IN2` (30_encoding.md R111 `LD3`). -/
def State.withSample (s : State) (a b c : Word) : State :=
  { s with regs := { s.regs with inp := { s.regs.inp with x0 := a, x1 := b, x2 := c } } }

/-- `Q` of a tick that left the registers `r`, as a natural number (45_pll.md R266). -/
def Regs.tickQuotient (r : Regs) : Nat :=
  r.nomticks.toNat * r.fref.toNat * 65536 / (max (max r.feff.toInt (r.fmin.toNat : Int)) 1).toNat

/-- A run of sample ticks from `s` to `t`, no reload of which saturates, with the sum of `RELOAD` and the sum of `Q` over it
(45_pll.md R267). -/
inductive Ticks (s : State) : Nat → Nat → State → Prop where
  | start : Ticks s 0 0 s
  | tick {reloads quotients : Nat} {u t : State} (a b c : Word) :
      Ticks s reloads quotients u →
      exec .pllstep (u.withSample a b c) = .next t →
      (u.regs.carry.toNat + t.regs.tickQuotient) / 65536 ≤ 65535 →
      Ticks s (reloads + t.regs.reload.toNat) (quotients + t.regs.tickQuotient) t

end Sys2Proof.Machine
end

