-- ==== Sys2Proof/Certificates/Slice0/Obligations.lean ====
section
/-! DEFINITION. The statements for the provers. A result statement has as its conclusion that exec answers a next state, and says its
results, read as signed words, by the rule's formula over the primitives, and its frame (`OnlyChanges`). -/

open Sys2Proof Sys2Proof.Machine

/-- 40_arith_primitives.md R134. -/
def Obligations.Sat32ClampsToNearestBound : Prop :=
  ∀ v : Int, (v < -2 ^ 31 → sat32 v = -2 ^ 31) ∧ (2 ^ 31 - 1 < v → sat32 v = 2 ^ 31 - 1) ∧
    (-2 ^ 31 ≤ v → v ≤ 2 ^ 31 - 1 → sat32 v = v)

/-- 40_arith_primitives.md R135: `wrap32 v` is the one signed word congruent to `v` modulo 2^32. -/
def Obligations.Wrap32IsTheCongruentWord : Prop :=
  ∀ v r : Int, r = wrap32 v ↔ -2 ^ 31 ≤ r ∧ r ≤ 2 ^ 31 - 1 ∧ (2 ^ 32 : Int) ∣ r - v

/-- 40_arith_primitives.md R138: the product, where it saturates, ONE, commutativity. The rule's remark smul31(x, ONE) = x for x ≤ 0
fails at x = −2^31 by its own formula and by a row of R147 (log entry 12): the clause here is the formula's. -/
def Obligations.Q31ProductExactButForMinTimesMin : Prop :=
  ∀ a b : Word,
    smul31 a.toInt b.toInt = sat32 (a.toInt * b.toInt / 2 ^ 31) ∧
      (¬(a = 0x80000000 ∧ b = 0x80000000) → smul31 a.toInt b.toInt = a.toInt * b.toInt / 2 ^ 31) ∧
      (a = 0x80000000 ∧ b = 0x80000000 → smul31 a.toInt b.toInt = 0x7FFFFFFF) ∧
      (0 < a.toInt → smul31 a.toInt 0x7FFFFFFF = a.toInt - 1) ∧
      (-2 ^ 31 < a.toInt → a.toInt ≤ 0 → smul31 a.toInt 0x7FFFFFFF = a.toInt) ∧
      (a = 0x80000000 → smul31 a.toInt 0x7FFFFFFF = -0x7FFFFFFF) ∧
      smul31 a.toInt b.toInt = smul31 b.toInt a.toInt

/-- 40_arith_primitives.md R139: the gain product for every FRAC of 00_scope.md R7; R147: the rows of the sign-combination table. -/
def Obligations.ProductSignTable : Prop :=
  (∀ (frac : Config.Frac) (a b : Int), smulF frac a b = sat32 (a * b / 2 ^ frac.val)) ∧
    (∀ b : Int, smul31 0 b = 0 ∧ smulF 16 0 b = 0) ∧
    (smul31 1 1 = 0 ∧ smulF 16 1 1 = 0) ∧ (smul31 (-1) 1 = -1 ∧ smulF 16 (-1) 1 = -1) ∧
    (smul31 (-1) (-1) = 0 ∧ smulF 16 (-1) (-1) = 0) ∧
    (smul31 0x7FFFFFFF 0x7FFFFFFF = 0x7FFFFFFE ∧ smulF 16 0x7FFFFFFF 0x7FFFFFFF = 0x7FFFFFFF) ∧
    (smul31 (-0x80000000) (-0x80000000) = 0x7FFFFFFF ∧ smulF 16 (-0x80000000) (-0x80000000) = 0x7FFFFFFF) ∧
    (smul31 (-0x80000000) 0x7FFFFFFF = -0x7FFFFFFF ∧ smulF 16 (-0x80000000) 0x7FFFFFFF = -0x80000000) ∧
    (smul31 0x7FFFFFFF 5 = 4 ∧ smulF 16 0x7FFFFFFF 5 = 163839) ∧
    (smul31 0x7FFFFFFF (-5) = -5 ∧ smulF 16 0x7FFFFFFF (-5) = -163840) ∧
    (smul31 0x40000000 0x40000000 = 0x20000000 ∧ smulF 16 0x40000000 0x40000000 = 0x7FFFFFFF) ∧
    (smul31 0x10000 0x10000 = 2 ∧ smulF 16 0x10000 0x10000 = 0x10000)

/-- 30_encoding.md R101, R105, R109: decoding accepts exactly the encodings, each as its command: no bit is dropped. -/
def Obligations.DecodeEncodeInverse : Prop :=
  ∀ (w : Word) (i : Instr), decode w = .ok i ↔ w = encode i

/-- 30_encoding.md R109: a word selects a row exactly when (w AND mask) = match; SEL of PIUPD is bits 9:8. -/
def Obligations.OpcodeRowsSelectByMaskAndMatch : Prop :=
  ∀ w : Word,
    (∀ row ∈ [((0x00 : Word), Instr.nop), (0x01, .uvec), (0x02, .rot), (0x03, .sh120p), (0x04, .sh120n), (0x05, .nharm),
        (0x10, .clarke), (0x11, .clarke0), (0x12, .iclarke), (0x13, .iclarke0), (0x14, .park), (0x15, .ipark),
        (0x16, .abc2dq), (0x18, .l2seq), (0x19, .seq2l), (0x30, .bankstep), (0x40, .pllinit), (0x41, .pllstep),
        (0x7F, .srst)],
      decode w = .ok row.2 ↔ w &&& 0xFFFFFFFF = row.1) ∧
    ((∃ sel, decode w = .ok (.piupd sel)) ↔ w &&& 0xFFFFFCFF = 0x20) ∧
    (∀ sel, decode w = .ok (.piupd sel) → sel.val = w.toNat / 256 % 4)

/-- 30_encoding.md R112: the words the four lines write, and the example words legal and illegal. -/
def Obligations.ExampleWordsDecode : Prop :=
  Machine.cmd .uvec = [.write 0x000 4 0x00000001] ∧ Machine.cmd (.piupd 2) = [.write 0x000 4 0x00000220] ∧
    Machine.cmd .pllstep = [.write 0x000 4 0x00000041] ∧ Machine.cmd .srst = [.write 0x000 4 0x0000007F] ∧
    decode 0x00000001 = .ok .uvec ∧ decode 0x00000220 = .ok (.piupd 2) ∧ decode 0x00000041 = .ok .pllstep ∧
    decode 0x0000007F = .ok .srst ∧ decode 0x00000101 = .error .selNotZero ∧
    decode 0x00000401 = .error .reservedBits ∧ decode 0x000000FF = .error .reservedOpcode ∧
    decode 0x00000006 = .error .reservedOpcode

/-- 30_encoding.md R100, R105: a step whose host move is the 4-byte write of a legal word to CMD is exec of the decoded command, on
the state with the word in CMD and the move taken. -/
def Obligations.CommandWriteRunsDecodedCommand : Prop :=
  ∀ (s : State) (w : Word) (rest : List HostMove) (i : Instr),
    s.pending = .write 0x000 4 w :: rest → decode w = .ok i →
      step s = exec i { s with pending := rest, regs := { s.regs with cmd := w } }

/-- 60_exceptions.md R311. -/
def Obligations.IllegalWordSetsIllcmdOnly : Prop :=
  ∀ (s : State) (w : Word) (rest : List HostMove),
    s.pending = .write 0x000 4 w :: rest →
      (w.toNat / 1024 ≠ 0 ∨
        w.toNat % 256 ∉ [0x00, 0x01, 0x02, 0x03, 0x04, 0x05, 0x10, 0x11, 0x12, 0x13, 0x14, 0x15, 0x16, 0x18, 0x19, 0x20,
          0x30, 0x40, 0x41, 0x7F] ∨
        (w.toNat % 256 ≠ 0x20 ∧ w.toNat / 256 % 4 ≠ 0)) →
      ∃ t, step s = .next t ∧ t.regs.cmd = w ∧ t.regs.status = s.regs.status ||| 0x00000001 ∧
        OnlyChanges [.cmd, .status] { s with pending := rest } t

/-- 20_memory.md R71, R77: a 4-byte read at a register's offset returns its content and has no side effect. -/
def Obligations.WordReadReturnsRegister : Prop :=
  ∀ (s : State) (x : Reg) (rest : List HostMove), s.pending = .read x.offset 4 :: rest →
    step s = .next { s with pending := rest, reads := s.reads ++ [s.regs.get x] }

/-- The register map by number: each register with its offset and its mask, as the rows of 10_state.md R45 give them. -/
def Sys2Proof.Claims.registerMap : List (Reg × Nat × Word) :=
  [(.cmd, 0x000, 0xFFFFFFFF), (.status, 0x004, 0x00000007), (.ctrl, 0x008, 0x00000001)] ++
    [(.inp 0, 0x010, 0xFFFFFFFF), (.inp 1, 0x014, 0xFFFFFFFF), (.inp 2, 0x018, 0xFFFFFFFF), (.inp 3, 0x01C, 0xFFFFFFFF),
      (.inp 4, 0x020, 0xFFFFFFFF), (.inp 5, 0x024, 0xFFFFFFFF)] ++
    [(.out 0, 0x030, 0xFFFFFFFF), (.out 1, 0x034, 0xFFFFFFFF), (.out 2, 0x038, 0xFFFFFFFF), (.out 3, 0x03C, 0xFFFFFFFF),
      (.out 4, 0x040, 0xFFFFFFFF), (.out 5, 0x044, 0xFFFFFFFF)] ++
    [(.fref, 0x080, 0x7FFFFFFF), (.fmin, 0x084, 0x7FFFFFFF), (.nomticks, 0x088, 0x0000FFFF), (.lpfk, 0x08C, 0x7FFFFFFF)] ++
    [(.pi 0 .kp, 0x0C0, 0xFFFFFFFF), (.pi 1 .kp, 0x0D0, 0xFFFFFFFF), (.pi 2 .kp, 0x0E0, 0xFFFFFFFF),
      (.pi 3 .kp, 0x0F0, 0xFFFFFFFF), (.pi 0 .ki, 0x0C4, 0xFFFFFFFF), (.pi 1 .ki, 0x0D4, 0xFFFFFFFF),
      (.pi 2 .ki, 0x0E4, 0xFFFFFFFF), (.pi 3 .ki, 0x0F4, 0xFFFFFFFF), (.pi 0 .maxi, 0x0C8, 0x7FFFFFFF),
      (.pi 1 .maxi, 0x0D8, 0x7FFFFFFF), (.pi 2 .maxi, 0x0E8, 0x7FFFFFFF), (.pi 3 .maxi, 0x0F8, 0x7FFFFFFF),
      (.pi 0 .integ, 0x0CC, 0xFFFFFFFF), (.pi 1 .integ, 0x0DC, 0xFFFFFFFF), (.pi 2 .integ, 0x0EC, 0xFFFFFFFF),
      (.pi 3 .integ, 0x0FC, 0xFFFFFFFF)] ++
    [(.term 0 .alpha, 0x100, 0xFFFFFFFF), (.term 1 .alpha, 0x120, 0xFFFFFFFF), (.term 2 .alpha, 0x140, 0xFFFFFFFF),
      (.term 3 .alpha, 0x160, 0xFFFFFFFF), (.term 0 .beta, 0x104, 0xFFFFFFFF), (.term 1 .beta, 0x124, 0xFFFFFFFF),
      (.term 2 .beta, 0x144, 0xFFFFFFFF), (.term 3 .beta, 0x164, 0xFFFFFFFF), (.term 0 .cosinc, 0x108, 0xFFFFFFFF),
      (.term 1 .cosinc, 0x128, 0xFFFFFFFF), (.term 2 .cosinc, 0x148, 0xFFFFFFFF), (.term 3 .cosinc, 0x168, 0xFFFFFFFF),
      (.term 0 .sininc, 0x10C, 0xFFFFFFFF), (.term 1 .sininc, 0x12C, 0xFFFFFFFF), (.term 2 .sininc, 0x14C, 0xFFFFFFFF),
      (.term 3 .sininc, 0x16C, 0xFFFFFFFF)] ++
    [(.term 0 .kalpha, 0x110, 0xFFFFFFFF), (.term 1 .kalpha, 0x130, 0xFFFFFFFF), (.term 2 .kalpha, 0x150, 0xFFFFFFFF),
      (.term 3 .kalpha, 0x170, 0xFFFFFFFF), (.term 0 .kbeta, 0x114, 0xFFFFFFFF), (.term 1 .kbeta, 0x134, 0xFFFFFFFF),
      (.term 2 .kbeta, 0x154, 0xFFFFFFFF), (.term 3 .kbeta, 0x174, 0xFFFFFFFF)] ++
    [(.acc, 0x180, 0xFFFFFFFF), (.err, 0x184, 0xFFFFFFFF)] ++
    [(.dposBar, 0x190, 0xFFFFFFFF), (.qposBar, 0x194, 0xFFFFFFFF), (.dnegBar, 0x198, 0xFFFFFFFF), (.qnegBar, 0x19C, 0xFFFFFFFF),
      (.theta, 0x1A0, 0xFFFFFFFF), (.sin, 0x1A4, 0xFFFFFFFF), (.cos, 0x1A8, 0xFFFFFFFF), (.ferr, 0x1AC, 0xFFFFFFFF),
      (.feff, 0x1B0, 0xFFFFFFFF), (.dqD, 0x1B4, 0xFFFFFFFF), (.dqQ, 0x1B8, 0xFFFFFFFF), (.dqnD, 0x1BC, 0xFFFFFFFF),
      (.dqnQ, 0x1C0, 0xFFFFFFFF), (.reload, 0x1C4, 0x0000FFFF), (.carry, 0x1C8, 0x0000FFFF)]

/-- 10_state.md R45, 20_memory.md R71: an access reaches a register exactly when it is 4 bytes at the offset of that register's row,
which is its own offset; every register has one row, with its own offset and mask. -/
def Obligations.RegisterMapReachesEachRegisterOnce : Prop :=
  (∀ (a n : Nat) (x : Reg), (accessReg a n = some x ↔ n = 4 ∧ a = x.offset) ∧
      (accessReg a n = some x ↔ n = 4 ∧ ∃ m, (x, a, m) ∈ Sys2Proof.Claims.registerMap)) ∧
    ∀ (x : Reg) (a : Nat) (m : Word), (x, a, m) ∈ Sys2Proof.Claims.registerMap ↔ a = x.offset ∧ m = x.mask

/-- 10_state.md R46 on the rows of R45: every register has a row, and a host write of `v` at the offset of a row other than those of
CMD and STATUS stores `v AND mask`, with the mask's number, and changes nothing else. -/
def Obligations.PlainWriteStoresMaskedValue : Prop :=
  (∀ x : Reg, ∃ a m, (x, a, m) ∈ Sys2Proof.Claims.registerMap) ∧
    ∀ (s : State) (x : Reg) (a : Nat) (m v : Word) (rest : List HostMove), (x, a, m) ∈ Sys2Proof.Claims.registerMap →
      x ≠ .cmd → x ≠ .status → s.pending = .write a 4 v :: rest →
        ∃ t, step s = .next t ∧ t.regs.get x = v &&& m ∧ OnlyChanges [x] { s with pending := rest } t

/-- 20_memory.md R73, R46: on the byte lanes, the write stores the word's bytes little-endian, and every byte of the register space
outside its four reads as before. -/
def Obligations.WordWriteTouchesItsFourBytesOnly : Prop :=
  ∀ (s : State) (x : Reg) (v : Word) (rest : List HostMove), x ≠ .cmd → x ≠ .status →
    s.pending = .write x.offset 4 v :: rest →
      ∃ t, step s = .next t ∧
        (∀ k < 4, t.regs.byteAt (x.offset + k) = some (BitVec.ofNat 8 ((v &&& x.mask).toNat / 256 ^ k))) ∧
        ∀ a, ¬(x.offset ≤ a ∧ a < x.offset + 4) → t.regs.byteAt a = s.regs.byteAt a

/-- 10_state.md R27: a host write to STATUS clears exactly the bits 2..0 it names with a 1. -/
def Obligations.StatusWriteOneToClear : Prop :=
  ∀ (s : State) (v : Word) (rest : List HostMove), s.pending = .write 0x004 4 v :: rest →
    ∃ t, step s = .next t ∧
      (∀ k, t.regs.status.getLsbD k = (s.regs.status.getLsbD k && !(k < 3 && v.getLsbD k))) ∧
      OnlyChanges [.status] { s with pending := rest } t

/-- 60_exceptions.md R313; the reserved offsets are those of 10_state.md R45. That an access lies inside the block when it starts
there, whatever its size, one that runs past 0x1FF among them, is the model's reading (log entry 5), not R313's words. -/
def Obligations.BadAccessSetsBadaddrOnly : Prop :=
  ∀ (s : State) (a n : Nat) (v : Word) (rest : List HostMove),
    a < 0x200 → (n ≠ 4 ∨ a % 4 ≠ 0 ∨ reservedOffset a = true) →
      (s.pending = .read a n :: rest →
        step s = .next { s with regs := { s.regs with status := s.regs.status ||| 0x00000004 }, pending := rest,
                                reads := s.reads ++ [0] }) ∧
      (s.pending = .write a n v :: rest →
        step s = .next { s with regs := { s.regs with status := s.regs.status ||| 0x00000004 }, pending := rest })

/-- The model's choice for 20_memory.md R78 (log entry 4): an access at an offset the block does not decode stops the machine. -/
def Obligations.OutsideAccessStops : Prop :=
  ∀ (s : State) (a n : Nat) (v : Word) (rest : List HostMove), 0x200 ≤ a →
    (s.pending = .read a n :: rest ∨ s.pending = .write a n v :: rest) → step s = .fault (.outsideBlock a)

/-- 10_state.md R53: the register values after reset. -/
def Obligations.ResetRegisterValues : Prop :=
  ∀ x : Reg, State.reset.regs.get x = if x = .cos then 0x7FFFFFFF else 0

/-- The registers are those of 70_reset_and_hazards.md R350, R351: every one at its reset value, whatever was there. That the host's
remaining moves and read values stay is the model's choice (log entry 15, with 8), and so is FRAC's staying (log entry 6). -/
def Obligations.HardwareResetGivesResetValues : Prop :=
  ∀ (s : State) (rest : List HostMove), s.pending = .reset :: rest →
    ∃ t, step s = .next t ∧ t.frac = s.frac ∧ t.pending = rest ∧ t.reads = s.reads ∧
      ∀ x : Reg, t.regs.get x = if x = .cos then 0x7FFFFFFF else 0

/-- 46_system.md R298: between two accesses the block does nothing (the step with no host move is the model's, log entry 2). -/
def Obligations.IdleStepChangesNothing : Prop :=
  ∀ s : State, s.pending = [] → step s = .next s

/-- 46_system.md R291: NOP leaves the state with CMD = 0. -/
def Obligations.NopLeavesOnlyItsWord : Prop :=
  ∀ s : State, encode .nop = 0x00000000 ∧ exec .nop s = .next s ∧
    ∀ rest, s.pending = .write 0x000 4 0x00000000 :: rest →
      step s = .next { s with pending := rest, regs := { s.regs with cmd := 0 } }

/-- The registers are those of 46_system.md R293: SRST gives every one its reset value, and is the only command that writes an operand
or configuration register. That the host's moves and read values stay is the model's choice (log entry 15), and so is FRAC's staying
(log entry 6). -/
def Obligations.SrstResetsEveryRegister : Prop :=
  (∀ s : State, encode .srst = 0x0000007F ∧ ∃ t, exec .srst s = .next t ∧ t.frac = s.frac ∧
    t.pending = s.pending ∧ t.reads = s.reads ∧
    ∀ x : Reg, t.regs.get x = if x = .cos then 0x7FFFFFFF else 0) ∧
    ∀ (i : Instr) (s t : State) (x : Reg), i ≠ .srst → exec i s = .next t → x.isConfig = true →
      t.regs.get x = s.regs.get x

/-- The literal entries `QT[0]` to `QT[128]`, as the rows of 41_trig.md R161 give them. -/
def Sys2Proof.Claims.quarterWave : List Int :=
  [0, 26352928, 52701887, 79042909, 105372028, 131685278, 157978697, 184248325,
      210490206, 236700388, 262874923, 289009871, 315101295, 341145265, 367137861, 393075166,
      418953276, 444768294, 470516330, 496193509, 521795963, 547319836, 572761285, 598116479,
      623381598, 648552838, 673626408, 698598533, 723465451, 748223418, 772868706, 797397602] ++
    [821806413, 846091463, 870249095, 894275671, 918167572, 941921200, 965532978, 988999351,
      1012316784, 1035481766, 1058490808, 1081340445, 1104027237, 1126547765, 1148898640, 1171076495,
      1193077991, 1214899813, 1236538675, 1257991320, 1279254516, 1300325060, 1321199781, 1341875533,
      1362349204, 1382617710, 1402678000, 1422527051, 1442161874, 1461579514, 1480777044, 1499751576] ++
    [1518500250, 1537020244, 1555308768, 1573363068, 1591180426, 1608758157, 1626093616, 1643184191,
      1660027308, 1676620432, 1692961062, 1709046739, 1724875040, 1740443581, 1755750017, 1770792044,
      1785567396, 1800073849, 1814309216, 1828271356, 1841958164, 1855367581, 1868497586, 1881346202,
      1893911494, 1906191570, 1918184581, 1929888720, 1941302225, 1952423377, 1963250501, 1973781967] ++
    [1984016189, 1993951625, 2003586779, 2012920201, 2021950484, 2030676269, 2039096241, 2047209133,
      2055013723, 2062508835, 2069693342, 2076566160, 2083126254, 2089372638, 2095304370, 2100920556,
      2106220352, 2111202959, 2115867626, 2120213651, 2124240380, 2127947206, 2131333572, 2134398966,
      2137142927, 2139565043, 2141664948, 2143442326, 2144896910, 2146028480, 2146836866, 2147321946] ++
    [2147483648]

/-- 41_trig.md R162, for an index of any size, and the table itself: the literals of R161, with that rule's transcription checks. -/
def Obligations.KnotsFollowTheQuarterWave : Prop :=
  ((List.range 129).map qt = Sys2Proof.Claims.quarterWave ∧ Sys2Proof.Claims.quarterWave.sum = 176064256231 ∧
      Sys2Proof.Claims.quarterWave.foldl (fun w v => w ^^^ BitVec.ofInt 32 v) 0 = (0xC3F432AD : Word)) ∧
    ∀ i : Nat, sinKnot i = sinKnot (i % 512) ∧ cosKnot i = sinKnot ((i + 128) % 512) ∧
    (i ≤ 128 → sinKnot i = qt i) ∧ (128 < i → i ≤ 256 → sinKnot i = qt (256 - i)) ∧
    (256 < i → i < 512 → sinKnot i = -sinKnot (i - 256)) ∧ -2 ^ 31 ≤ sinKnot i ∧ sinKnot i ≤ 2 ^ 31

/-- The Hermite interpolant as 41_trig.md R165 writes it, its floors as arithmetic shifts. -/
def Sys2Proof.Claims.hermite (p0 p1 m0 m1 t : Int) : Int :=
  let c2 := 3 * (p1 - p0) - 2 * m0 - m1
  let c3 := 2 * (p0 - p1) + m0 + m1
  sat32 (p0 + (((m0 + (((c2 + ((c3 * t) >>> 23)) * t) >>> 23)) * t) >>> 23))

/-- 41_trig.md R170 by R164 to R166: index u[31:23], fraction u[22:0], the derivatives from the table a quarter turn away. -/
def Obligations.UvecInterpolatesItsOperand : Prop :=
  ∀ s : State, encode .uvec = 0x00000001 ∧ ∃ t, exec .uvec s = .next t ∧
    (let i := (s.regs.inp.x0.extractLsb' 23 9).toNat
     let j := (i + 1) % 512
     let f : Int := (s.regs.inp.x0.extractLsb' 0 23).toNat
     t.regs.out.x0.toInt = Sys2Proof.Claims.hermite (sinKnot i) (sinKnot j)
        ((52707179 * cosKnot i) >>> 32) ((52707179 * cosKnot j) >>> 32) f ∧
     t.regs.out.x1.toInt = Sys2Proof.Claims.hermite (cosKnot i) (cosKnot j)
        ((-52707179 * sinKnot i) >>> 32) ((-52707179 * sinKnot j) >>> 32) f) ∧
    OnlyChanges [.out 0, .out 1] s t

/-- 41_trig.md R163. -/
def Obligations.UvecExactAtKnots : Prop :=
  (∀ i : Nat, i < 512 → uvec ((i : Int) * 2 ^ 23) = ⟨sat32 (sinKnot i), sat32 (cosKnot i)⟩) ∧
    uvec 0 = ⟨0, 0x7FFFFFFF⟩ ∧ uvec 0x40000000 = ⟨0x7FFFFFFF, 0⟩ ∧ uvec (-0x80000000) = ⟨0, -0x80000000⟩ ∧
    uvec (-0x40000000) = ⟨-0x80000000, 0⟩

/-- 41_trig.md R172 by R171. -/
def Obligations.RotRotatesThePair : Prop :=
  ∀ s : State, encode .rot = 0x00000002 ∧ ∃ t, exec .rot s = .next t ∧
    (let x := s.regs.inp.x0.toInt
     let y := s.regs.inp.x1.toInt
     let c := s.regs.inp.x2.toInt
     let sn := s.regs.inp.x3.toInt
     t.regs.out.x0.toInt = ssub (smul31 x c) (smul31 y sn) ∧
     t.regs.out.x1.toInt = sadd (smul31 x sn) (smul31 y c)) ∧
    OnlyChanges [.out 0, .out 1] s t

/-- 41_trig.md R174 by R173; K_SQRT3_2 = 1859775393. -/
def Obligations.Sh120pAdvancesBy120Degrees : Prop :=
  ∀ s : State, encode .sh120p = 0x00000003 ∧ ∃ t, exec .sh120p s = .next t ∧
    (let sn := s.regs.inp.x0.toInt
     let c := s.regs.inp.x1.toInt
     t.regs.out.x0.toInt = ssub (smul31 c 1859775393) (sn / 2) ∧
     t.regs.out.x1.toInt = ssub (ssub 0 (c / 2)) (smul31 sn 1859775393)) ∧
    OnlyChanges [.out 0, .out 1] s t

/-- 41_trig.md R175 by R173. -/
def Obligations.Sh120nSetsBackBy120Degrees : Prop :=
  ∀ s : State, encode .sh120n = 0x00000004 ∧ ∃ t, exec .sh120n s = .next t ∧
    (let sn := s.regs.inp.x0.toInt
     let c := s.regs.inp.x1.toInt
     t.regs.out.x0.toInt = ssub (ssub 0 (sn / 2)) (smul31 c 1859775393) ∧
     t.regs.out.x1.toInt = ssub (smul31 sn 1859775393) (c / 2)) ∧
    OnlyChanges [.out 0, .out 1] s t

/-- 41_trig.md R177 by R176: the doubled product is not saturated, the difference is. -/
def Obligations.NharmTakesOneRecursionStep : Prop :=
  ∀ s : State, encode .nharm = 0x00000005 ∧ ∃ t, exec .nharm s = .next t ∧
    (let cos1 := s.regs.inp.x0.toInt
     let sin1 := s.regs.inp.x1.toInt
     let cos2 := s.regs.inp.x2.toInt
     let sin2 := s.regs.inp.x3.toInt
     let cosStep := s.regs.inp.x4.toInt
     t.regs.out.x0.toInt = sat32 (cosStep * cos1 / 2 ^ 30 - cos2) ∧
     t.regs.out.x1.toInt = sat32 (cosStep * sin1 / 2 ^ 30 - sin2)) ∧
    OnlyChanges [.out 0, .out 1] s t

/-- 42_transforms.md R192 by R191; K13 = 715827883, K23 = 1431655765, K_INVSQRT3 = 1239850262. -/
def Obligations.ClarkeGivesAlphaBeta : Prop :=
  ∀ s : State, encode .clarke = 0x00000010 ∧ ∃ t, exec .clarke s = .next t ∧
    (let a := s.regs.inp.x0.toInt
     let b := s.regs.inp.x1.toInt
     let c := s.regs.inp.x2.toInt
     t.regs.out.x0.toInt = ssub (ssub (smul31 a 1431655765) (smul31 b 715827883)) (smul31 c 715827883) ∧
     t.regs.out.x1.toInt = smul31 (ssub b c) 1239850262) ∧
    OnlyChanges [.out 0, .out 1] s t

/-- 42_transforms.md R193 by R191. -/
def Obligations.Clarke0GivesAlphaBetaZero : Prop :=
  ∀ s : State, encode .clarke0 = 0x00000011 ∧ ∃ t, exec .clarke0 s = .next t ∧
    (let a := s.regs.inp.x0.toInt
     let b := s.regs.inp.x1.toInt
     let c := s.regs.inp.x2.toInt
     t.regs.out.x0.toInt = ssub (ssub (smul31 a 1431655765) (smul31 b 715827883)) (smul31 c 715827883) ∧
     t.regs.out.x1.toInt = smul31 (ssub b c) 1239850262 ∧
     t.regs.out.x2.toInt = smul31 (sadd (sadd a b) c) 715827883) ∧
    OnlyChanges [.out 0, .out 1, .out 2] s t

/-- 42_transforms.md R195 by R194. -/
def Obligations.IclarkeGivesThreePhases : Prop :=
  ∀ s : State, encode .iclarke = 0x00000012 ∧ ∃ t, exec .iclarke s = .next t ∧
    (let al := s.regs.inp.x0.toInt
     let be := s.regs.inp.x1.toInt
     t.regs.out.x0.toInt = al ∧
     t.regs.out.x1.toInt = ssub (smul31 be 1859775393) (al / 2) ∧
     t.regs.out.x2.toInt = ssub (ssub 0 (al / 2)) (smul31 be 1859775393)) ∧
    OnlyChanges [.out 0, .out 1, .out 2] s t

/-- 42_transforms.md R196 by R194. -/
def Obligations.Iclarke0GivesThreePhases : Prop :=
  ∀ s : State, encode .iclarke0 = 0x00000013 ∧ ∃ t, exec .iclarke0 s = .next t ∧
    (let al := s.regs.inp.x0.toInt
     let be := s.regs.inp.x1.toInt
     let z := s.regs.inp.x2.toInt
     t.regs.out.x0.toInt = sadd al z ∧
     t.regs.out.x1.toInt = sadd (ssub (smul31 be 1859775393) (al / 2)) z ∧
     t.regs.out.x2.toInt = sadd (ssub (ssub 0 (al / 2)) (smul31 be 1859775393)) z) ∧
    OnlyChanges [.out 0, .out 1, .out 2] s t

/-- 42_transforms.md R194: ICLARKE gives the results of ICLARKE0 with a zero component of 0. -/
def Obligations.IclarkeIsIclarke0WithZeroComponent : Prop :=
  ∀ s : State, s.regs.inp.x2 = 0 → ∃ t, exec .iclarke s = .next t ∧ exec .iclarke0 s = .next t

/-- 42_transforms.md R198 by R197. -/
def Obligations.ParkGivesDq : Prop :=
  ∀ s : State, encode .park = 0x00000014 ∧ ∃ t, exec .park s = .next t ∧
    (let al := s.regs.inp.x0.toInt
     let be := s.regs.inp.x1.toInt
     let sn := s.regs.inp.x2.toInt
     let c := s.regs.inp.x3.toInt
     t.regs.out.x0.toInt = ssub (smul31 al sn) (smul31 be c) ∧
     t.regs.out.x1.toInt = sadd (smul31 al c) (smul31 be sn)) ∧
    OnlyChanges [.out 0, .out 1] s t

/-- 42_transforms.md R200 by R199. -/
def Obligations.IparkGivesAlphaBeta : Prop :=
  ∀ s : State, encode .ipark = 0x00000015 ∧ ∃ t, exec .ipark s = .next t ∧
    (let d := s.regs.inp.x0.toInt
     let q := s.regs.inp.x1.toInt
     let sn := s.regs.inp.x2.toInt
     let c := s.regs.inp.x3.toInt
     t.regs.out.x0.toInt = sadd (smul31 d sn) (smul31 q c) ∧
     t.regs.out.x1.toInt = ssub (smul31 q sn) (smul31 d c)) ∧
    OnlyChanges [.out 0, .out 1] s t

/-- 42_transforms.md R202 by R201: the shifted pairs are what SH120N and SH120P give for the operand's (sin, cos). -/
def Obligations.Abc2dqUsesShiftedPairs : Prop :=
  ∀ s : State, encode .abc2dq = 0x00000016 ∧ ∃ t m p, exec .abc2dq s = .next t ∧
    exec .sh120n { s with regs := { s.regs with inp := { s.regs.inp with x0 := s.regs.inp.x3, x1 := s.regs.inp.x4 } } }
      = .next m ∧
    exec .sh120p { s with regs := { s.regs with inp := { s.regs.inp with x0 := s.regs.inp.x3, x1 := s.regs.inp.x4 } } }
      = .next p ∧
    (let a := s.regs.inp.x0.toInt
     let b := s.regs.inp.x1.toInt
     let c := s.regs.inp.x2.toInt
     t.regs.out.x0.toInt = smul31 (sadd (sadd (smul31 a s.regs.inp.x3.toInt) (smul31 b m.regs.out.x0.toInt))
        (smul31 c p.regs.out.x0.toInt)) 1431655765 ∧
     t.regs.out.x1.toInt = smul31 (sadd (sadd (smul31 a s.regs.inp.x4.toInt) (smul31 b m.regs.out.x1.toInt))
        (smul31 c p.regs.out.x1.toInt)) 1431655765) ∧
    OnlyChanges [.out 0, .out 1] s t

/-- `rotp` on a pair, by 42_transforms.md R203. -/
def Sys2Proof.Claims.plus120 (d q : Int) : Int × Int :=
  (ssub (ssub 0 (d / 2)) (smul31 q 1859775393), ssub (smul31 d 1859775393) (q / 2))

/-- `rotn` on a pair, by 42_transforms.md R203. -/
def Sys2Proof.Claims.minus120 (d q : Int) : Int × Int :=
  (ssub (smul31 q 1859775393) (d / 2), ssub (ssub 0 (smul31 d 1859775393)) (q / 2))

/-- `third`, by 42_transforms.md R203; K13 = 715827883. -/
def Sys2Proof.Claims.third (x y z : Int) : Int := smul31 (sadd (sadd x y) z) 715827883

/-- 42_transforms.md R205 by R203, R204. -/
def Obligations.L2seqGivesSequenceComponents : Prop :=
  ∀ s : State, encode .l2seq = 0x00000018 ∧ ∃ t, exec .l2seq s = .next t ∧
    (let ad := s.regs.inp.x0.toInt
     let aq := s.regs.inp.x1.toInt
     let bd := s.regs.inp.x2.toInt
     let bq := s.regs.inp.x3.toInt
     let cd := s.regs.inp.x4.toInt
     let cq := s.regs.inp.x5.toInt
     let bp := Sys2Proof.Claims.plus120 bd bq
     let bn := Sys2Proof.Claims.minus120 bd bq
     let cp := Sys2Proof.Claims.plus120 cd cq
     let cn := Sys2Proof.Claims.minus120 cd cq
     t.regs.out.x0.toInt = Sys2Proof.Claims.third ad bp.1 cn.1 ∧
     t.regs.out.x1.toInt = Sys2Proof.Claims.third aq bp.2 cn.2 ∧
     t.regs.out.x2.toInt = Sys2Proof.Claims.third ad bn.1 cp.1 ∧
     t.regs.out.x3.toInt = Sys2Proof.Claims.third aq bn.2 cp.2 ∧
     t.regs.out.x4.toInt = Sys2Proof.Claims.third ad bd cd ∧
     t.regs.out.x5.toInt = Sys2Proof.Claims.third aq bq cq) ∧
    OnlyChanges [.out 0, .out 1, .out 2, .out 3, .out 4, .out 5] s t

/-- 42_transforms.md R207 by R203, R206. -/
def Obligations.Seq2lGivesLines : Prop :=
  ∀ s : State, encode .seq2l = 0x00000019 ∧ ∃ t, exec .seq2l s = .next t ∧
    (let pd := s.regs.inp.x0.toInt
     let pq := s.regs.inp.x1.toInt
     let nd := s.regs.inp.x2.toInt
     let nq := s.regs.inp.x3.toInt
     let zd := s.regs.inp.x4.toInt
     let zq := s.regs.inp.x5.toInt
     let pp := Sys2Proof.Claims.plus120 pd pq
     let pn := Sys2Proof.Claims.minus120 pd pq
     let np := Sys2Proof.Claims.plus120 nd nq
     let nn := Sys2Proof.Claims.minus120 nd nq
     t.regs.out.x0.toInt = sadd (sadd pd nd) zd ∧
     t.regs.out.x1.toInt = sadd (sadd pq nq) zq ∧
     t.regs.out.x2.toInt = sadd (sadd pn.1 np.1) zd ∧
     t.regs.out.x3.toInt = sadd (sadd pn.2 np.2) zq ∧
     t.regs.out.x4.toInt = sadd (sadd pp.1 nn.1) zd ∧
     t.regs.out.x5.toInt = sadd (sadd pp.2 nn.2) zq) ∧
    OnlyChanges [.out 0, .out 1, .out 2, .out 3, .out 4, .out 5] s t

/-- 43_pi.md R222 by R220, on every instance and for every FRAC: the integral, then the output from the clamped integral. -/
def Obligations.PiupdUpdatesItsInstance : Prop :=
  ∀ (sel : Fin 4) (s : State), encode (.piupd sel) = 0x00000020 + 0x100 * BitVec.ofNat 32 sel.val ∧
    ∃ t, exec (.piupd sel) s = .next t ∧
    (let e := s.regs.inp.x0.toInt
     let kp := (s.regs.get (.pi sel .kp)).toInt
     let ki := (s.regs.get (.pi sel .ki)).toInt
     let mx : Int := (s.regs.get (.pi sel .maxi)).toNat
     let integ := (t.regs.get (.pi sel .integ)).toInt
     integ = min (max (sadd (s.regs.get (.pi sel .integ)).toInt (smulF s.frac ki e)) (-mx)) mx ∧
     t.regs.out.x0.toInt = sadd (smulF s.frac kp e) integ) ∧
    OnlyChanges [.out 0, .pi sel .integ] s t

/-- 43_pi.md R221: after PIUPD the integral is within its clamp, whatever it held before; PLLSTEP says the same of instances 0, 1. -/
def Obligations.IntegralClampedAfterUpdate : Prop :=
  (∀ (sel : Fin 4) (s : State), ∃ t, exec (.piupd sel) s = .next t ∧ (t.regs.pi.get sel).Bounded) ∧
    ∀ s : State, ∃ t, exec .pllstep s = .next t ∧ (t.regs.pi.get 0).Bounded ∧ (t.regs.pi.get 1).Bounded

/-- No command takes an integral out of its clamp (43_pi.md R221, 10_state.md R33). -/
def Obligations.CommandsKeepIntegralsClamped : Prop :=
  ∀ (i : Instr) (s t : State), exec i s = .next t → s.regs.PiBounded → t.regs.PiBounded

/-- The sum of the four alphas of a state's bank, saturating from term 0 upward (44_bank.md R236, R238). -/
def Sys2Proof.Claims.alphaSum (r : Regs) : Int :=
  [0, 1, 2, 3].foldl (fun acc j => sadd acc (r.get (.term j .alpha)).toInt) 0

/-- 44_bank.md R239 by R236 to R238, for every FRAC. -/
def Obligations.BankstepUpdatesTheTerms : Prop :=
  ∀ s : State, encode .bankstep = 0x00000030 ∧ ∃ t, exec .bankstep s = .next t ∧
    (let err := ssub s.regs.inp.x0.toInt (Sys2Proof.Claims.alphaSum s.regs)
     t.regs.err.toInt = err ∧ t.regs.acc.toInt = Sys2Proof.Claims.alphaSum t.regs ∧
     (∀ j : Fin 4,
       let al := (s.regs.get (.term j .alpha)).toInt
       let be := (s.regs.get (.term j .beta)).toInt
       let c := (s.regs.get (.term j .cosinc)).toInt
       let sn := (s.regs.get (.term j .sininc)).toInt
       (t.regs.get (.term j .alpha)).toInt =
         sadd (ssub (smul31 al c) (smul31 be sn)) (smulF s.frac (s.regs.get (.term j .kalpha)).toInt err) ∧
       (t.regs.get (.term j .beta)).toInt =
         sadd (sadd (smul31 al sn) (smul31 be c)) (smulF s.frac (s.regs.get (.term j .kbeta)).toInt err)) ∧
     t.regs.out.x0 = t.regs.get (.term 0 .alpha) ∧ t.regs.out.x1 = t.regs.get (.term 0 .beta) ∧
     t.regs.out.x2 = t.regs.acc ∧ t.regs.out.x3 = t.regs.err) ∧
    OnlyChanges [.out 0, .out 1, .out 2, .out 3, .acc, .err, .term 0 .alpha, .term 0 .beta, .term 1 .alpha, .term 1 .beta,
      .term 2 .alpha, .term 2 .beta, .term 3 .alpha, .term 3 .beta] s t

/-- 60_exceptions.md R312: through the bus, so that CMD holds the word; no command but PLLINIT raises a fault, and only SRST
clears one. -/
def Obligations.ConfigErrorChangesNothingElse : Prop :=
  (∀ (s : State) (rest : List HostMove), s.pending = .write 0x000 4 0x00000040 :: rest →
    (s.regs.fref = 0 ∨ s.regs.fmin = 0 ∨ s.regs.nomticks = 0) →
      ∃ t, step s = .next t ∧ t.regs.cmd = 0x00000040 ∧ t.regs.status = s.regs.status ||| 0x00000002 ∧
        OnlyChanges [.cmd, .status] { s with pending := rest } t) ∧
    ∀ (i : Instr) (s t : State), i ≠ .pllinit → i ≠ .srst → exec i s = .next t → t.regs.status = s.regs.status

/-- 45_pll.md R251: the error path, and the construction with increments of ORDER[j]·FREF (1, 3, 5, 7, wrapping), every state
register listed. -/
def Obligations.PllinitConstructsThePll : Prop :=
  ∀ s : State, encode .pllinit = 0x00000040 ∧ ∃ t, exec .pllinit s = .next t ∧
    if s.regs.fref = 0 ∨ s.regs.fmin = 0 ∨ s.regs.nomticks = 0 then
      t.regs.status = s.regs.status ||| 0x00000002 ∧ OnlyChanges [.status] s t
    else
      (∀ j : Fin 4,
        let v := uvec (BitVec.ofNat 32 (2 * j.val + 1) * s.regs.fref).toInt
        (t.regs.get (.term j .sininc)).toInt = v.sin ∧ (t.regs.get (.term j .cosinc)).toInt = v.cos ∧
        t.regs.get (.term j .alpha) = 0 ∧ t.regs.get (.term j .beta) = 0) ∧
      (∀ x ∈ [Reg.acc, .err, .dposBar, .qposBar, .dnegBar, .qnegBar, .theta, .sin, .pi 0 .integ, .pi 1 .integ, .ferr, .dqD,
        .dqQ, .dqnD, .dqnQ, .carry], t.regs.get x = 0) ∧
      t.regs.cos = 0x7FFFFFFF ∧ t.regs.feff = s.regs.fref ∧ t.regs.reload = s.regs.nomticks ∧
      OnlyChanges [.term 0 .sininc, .term 0 .cosinc, .term 0 .alpha, .term 0 .beta, .term 1 .sininc, .term 1 .cosinc,
        .term 1 .alpha, .term 1 .beta, .term 2 .sininc, .term 2 .cosinc, .term 2 .alpha, .term 2 .beta, .term 3 .sininc,
        .term 3 .cosinc, .term 3 .alpha, .term 3 .beta, .acc, .err, .dposBar, .qposBar, .dnegBar, .qnegBar, .theta, .sin,
        .cos, .pi 0 .integ, .pi 1 .integ, .ferr, .feff, .dqD, .dqQ, .dqnD, .dqnQ, .reload, .carry] s t

/-- 45_pll.md R253, R254: PLLSTEP updates the bank exactly as BANKSTEP with the Clarke alpha of the sample in IN0. -/
def Obligations.PllstepStepsTheBank : Prop :=
  ∀ s : State, ∃ c t u, exec .clarke s = .next c ∧ exec .pllstep s = .next t ∧
    exec .bankstep { s with regs := { s.regs with inp := { s.regs.inp with x0 := c.regs.out.x0 } } } = .next u ∧
    t.regs.term = u.regs.term ∧ t.regs.acc = u.regs.acc ∧ t.regs.err = u.regs.err

/-- 45_pll.md R255, R256 with CTRL.DEC = 0. -/
def Obligations.PllstepPlainDq : Prop :=
  ∀ s : State, s.regs.ctrl.getLsbD 0 = false → ∃ t, exec .pllstep s = .next t ∧
    (let al := t.regs.term.x0.alpha.toInt
     let be := t.regs.term.x0.beta.toInt
     let sn := s.regs.sin.toInt
     let c := s.regs.cos.toInt
     t.regs.dqD.toInt = ssub (smul31 al sn) (smul31 be c) ∧ t.regs.dqQ.toInt = sadd (smul31 al c) (smul31 be sn)) ∧
    t.regs.dqnD = s.regs.dqnD ∧ t.regs.dqnQ = s.regs.dqnQ ∧ t.regs.dposBar = s.regs.dposBar ∧
    t.regs.qposBar = s.regs.qposBar ∧ t.regs.dnegBar = s.regs.dnegBar ∧ t.regs.qnegBar = s.regs.qnegBar

/-- 45_pll.md R257 to R261 with CTRL.DEC = 1: corrections from the old bars, then the bars filtered. -/
def Obligations.PllstepDecouples : Prop :=
  ∀ s : State, s.regs.ctrl.getLsbD 0 = true → ∃ t, exec .pllstep s = .next t ∧
    (let al := t.regs.term.x0.alpha.toInt
     let be := t.regs.term.x0.beta.toInt
     let sn := s.regs.sin.toInt
     let c := s.regs.cos.toInt
     let ns := ssub 0 sn
     let c2 := sat32 (c * c / 2 ^ 30 - 2147483647)
     let s2 := sat32 (c * sn / 2 ^ 30)
     let dpb := s.regs.dposBar.toInt
     let qpb := s.regs.qposBar.toInt
     let dnb := s.regs.dnegBar.toInt
     let qnb := s.regs.qnegBar.toInt
     let k : Int := s.regs.lpfk.toNat
     t.regs.dqD.toInt =
       ssub (ssub (ssub (smul31 al sn) (smul31 be c)) (smul31 c2 dnb)) (smul31 s2 qnb) ∧
     t.regs.dqQ.toInt =
       ssub (sadd (sadd (smul31 al c) (smul31 be sn)) (smul31 s2 dnb)) (smul31 c2 qnb) ∧
     t.regs.dqnD.toInt =
       sadd (ssub (ssub (smul31 al ns) (smul31 be c)) (smul31 c2 dpb)) (smul31 s2 qpb) ∧
     t.regs.dqnQ.toInt =
       ssub (ssub (sadd (smul31 al c) (smul31 be ns)) (smul31 s2 dpb)) (smul31 c2 qpb) ∧
     t.regs.dposBar.toInt = sadd dpb (smul31 (ssub t.regs.dqD.toInt dpb) k) ∧
     t.regs.qposBar.toInt = sadd qpb (smul31 (ssub t.regs.dqQ.toInt qpb) k) ∧
     t.regs.dnegBar.toInt = sadd dnb (smul31 (ssub t.regs.dqnD.toInt dnb) k) ∧
     t.regs.qnegBar.toInt = sadd qnb (smul31 (ssub t.regs.dqnQ.toInt qnb) k))

/-- 45_pll.md R262: the phase loop is PIUPD.0 with DQ_Q as its error; THETA advances by FREF + FERR modulo 2^32. -/
def Obligations.PllstepAdvancesThePhase : Prop :=
  ∀ s : State, ∃ t u, exec .pllstep s = .next t ∧
    exec (.piupd 0) { s with regs := { s.regs with inp := { s.regs.inp with x0 := t.regs.dqQ } } } = .next u ∧
    t.regs.pi.x0 = u.regs.pi.x0 ∧ t.regs.ferr = u.regs.out.x0 ∧
    t.regs.theta = s.regs.theta + s.regs.fref + t.regs.ferr

/-- 45_pll.md R265: the clock loop is PIUPD.1 with FERR as its error; FEFF is FREF plus its output, saturating. -/
def Obligations.PllstepEstimatesTheFrequency : Prop :=
  ∀ s : State, ∃ t u, exec .pllstep s = .next t ∧
    exec (.piupd 1) { s with regs := { s.regs with inp := { s.regs.inp with x0 := t.regs.ferr } } } = .next u ∧
    t.regs.pi.x1 = u.regs.pi.x1 ∧ t.regs.feff.toInt = sat32 (s.regs.fref.toNat + u.regs.out.x0.toInt)

/-- 45_pll.md R266, R267: RELOAD and CARRY from the guarded quotient; the premise on CARRY is the invariant of R44. -/
def Obligations.PllstepReloadAndCarry : Prop :=
  ∀ s : State, s.regs.CarryBelowTick → ∃ t, exec .pllstep s = .next t ∧
    (let fdiv : Int := max (max t.regs.feff.toInt s.regs.fmin.toNat) 1
     let q := s.regs.nomticks.toNat * s.regs.fref.toNat * 65536 / fdiv.toNat
     t.regs.reload.toNat = min ((s.regs.carry.toNat + q) / 65536) 65535 ∧
     t.regs.carry.toNat = (s.regs.carry.toNat + q) % 65536)

/-- 45_pll.md R264, R268: SIN, COS of the new THETA, and the six results. -/
def Obligations.PllstepUnitVectorAndResults : Prop :=
  ∀ s : State, ∃ t, exec .pllstep s = .next t ∧
    t.regs.sin.toInt = (uvec t.regs.theta.toInt).sin ∧ t.regs.cos.toInt = (uvec t.regs.theta.toInt).cos ∧
    t.regs.out = ⟨t.regs.theta, t.regs.feff, t.regs.sin, t.regs.cos, t.regs.reload, t.regs.ferr⟩

/-- 45_pll.md R252, R263: PLLSTEP completes from every state and writes the state it lists, the negative sequence and the bars only
with CTRL.DEC = 1; it raises no fault. -/
def Obligations.PllstepFrame : Prop :=
  ∀ s : State, encode .pllstep = 0x00000041 ∧ ∃ t, exec .pllstep s = .next t ∧
    OnlyChanges ([.term 0 .alpha, .term 0 .beta, .term 1 .alpha, .term 1 .beta, .term 2 .alpha, .term 2 .beta, .term 3 .alpha,
      .term 3 .beta, .acc, .err, .dqD, .dqQ, .pi 0 .integ, .pi 1 .integ, .theta, .sin, .cos, .ferr, .feff, .reload, .carry,
      .out 0, .out 1, .out 2, .out 3, .out 4, .out 5] ++
      if s.regs.ctrl.getLsbD 0 then [.dqnD, .dqnQ, .dposBar, .qposBar, .dnegBar, .qnegBar] else []) s t

/-- 45_pll.md R267: over any number of ticks without saturation, the reloads sum to floor((initial CARRY + sum of Q) / 65536), and
CARRY holds the rest. -/
def Obligations.ReloadErrorDiffusion : Prop :=
  ∀ (s t : State) (reloads quotients : Nat), s.regs.CarryBelowTick → Ticks s reloads quotients t →
    reloads = (s.regs.carry.toNat + quotients) / 65536 ∧
      t.regs.carry.toNat = (s.regs.carry.toNat + quotients) % 65536

/-- 70_reset_and_hazards.md R353: from reset, whatever the sample and FRAC, PLLSTEP moves nothing but ERR and the copy of COS. -/
def Obligations.PllstepFromReset : Prop :=
  ∀ (frac : Config.Frac) (a b c : Word), ∃ k t,
    exec .clarke (State.withSample { State.reset with frac := frac } a b c) = .next k ∧
    exec .pllstep (State.withSample { State.reset with frac := frac } a b c) = .next t ∧
    t.regs.err = k.regs.out.x0 ∧ t.regs.out = ⟨0, 0, 0, 0x7FFFFFFF, 0, 0⟩ ∧
    OnlyChanges [.err, .out 3] (State.withSample { State.reset with frac := frac } a b c) t

/-- 10_state.md R46: no step of the machine puts a bit outside a register's mask. -/
def Obligations.StepKeepsMasks : Prop :=
  ∀ s t : State, s.regs.Masked → step s = .next t → t.regs.Masked

/-- 10_state.md R38: every step keeps (SIN, COS) the unit vector of THETA, but a host write to one of the three. -/
def Obligations.StepKeepsUnitVectorCoherent : Prop :=
  ∀ s t : State, s.regs.Coherent →
    (∀ x ∈ [Reg.theta, .sin, .cos], ∀ v, s.pending.head? ≠ some (.write x.offset 4 v)) →
      step s = .next t → t.regs.Coherent

/-- The state after reset meets the invariants of R46, R38, R221 and R44. -/
def Obligations.ResetMeetsTheInvariants : Prop :=
  State.reset.regs.Masked ∧ State.reset.regs.Coherent ∧ State.reset.regs.PiBounded ∧ State.reset.regs.CarryBelowTick

/-- 46_system.md R297: two states of one build (FRAC) that agree but for CMD, STATUS, the results, ACC and ERR stay so under every
command, and each of these registers is left alone in both, written alike in both, or (STATUS) gets the same fault bit in both. -/
def Obligations.CommandsReadNoOutputOrFlag : Prop :=
  ∀ (i : Instr) (s s' : State), s.frac = s'.frac → (∀ x : Reg, x.isOutput = false → s.regs.get x = s'.regs.get x) →
    ∃ t t', exec i s = .next t ∧ exec i s' = .next t' ∧
      ∀ x : Reg, t.regs.get x = t'.regs.get x ∨ (t.regs.get x = s.regs.get x ∧ t'.regs.get x = s'.regs.get x) ∨
        (x = .status ∧ t.regs.get x = s.regs.get x ||| 2 ∧ t'.regs.get x = s'.regs.get x ||| 2)

/-- 46_system.md R298: a run of accesses that reach the block cannot get stuck; it ends when the list is exhausted, with one value
for each read. -/
def Obligations.InBlockRunCompletes : Prop :=
  ∀ s : State, s.InBlock → ∃ t, Host.Core.run core s.pending.length s = .next t ∧ t.pending = [] ∧ t.frac = s.frac ∧
    t.reads.length = s.reads.length +
      (s.pending.filter fun m => match m with
        | .read _ _ => true
        | .write _ _ _ => false
        | .reset => false).length

/-- 41_trig.md, 42_transforms.md, 46_system.md R290: the pure commands depend on IN registers only (R353) and write OUT only: each has
its own list of result registers, equal afterwards in any two states with the same IN registers, and every other OUT register is
untouched in both. -/
def Obligations.PureCommandsDependOnOperandsOnly : Prop :=
  ∀ i ∈ [Instr.uvec, .rot, .sh120p, .sh120n, .nharm, .clarke, .clarke0, .iclarke, .iclarke0, .park, .ipark, .abc2dq, .l2seq,
      .seq2l], ∃ results : List (Fin 6), ∀ s s' : State, s.regs.inp = s'.regs.inp →
    ∃ t t', exec i s = .next t ∧ exec i s' = .next t' ∧
      (∀ k : Fin 6,
        if k ∈ results then t.regs.out.get k = t'.regs.out.get k
        else t.regs.out.get k = s.regs.out.get k ∧ t'.regs.out.get k = s'.regs.out.get k) ∧
      OnlyChanges (results.map .out) s t ∧ OnlyChanges (results.map .out) s' t'
end

