-- ==== Sys2Proof/Laws/Arith.lean ====
section
/-! SUPPORT. What each arithmetic primitive can give: its range, and that a stored result reads back as itself
(30_encoding.md R104). -/

namespace Sys2Proof.Machine

/-- `v` fits a signed word. -/
def IsWord (v : Int) : Prop := wordMin ≤ v ∧ v ≤ wordMax

theorem isWord_s32 (p : Word) : IsWord (s32 p) := by
  have h1 := BitVec.le_toInt p
  have h2 := BitVec.toInt_lt (x := p)
  unfold IsWord s32 wordMin wordMax
  omega

theorem s32_u32_of_isWord {v : Int} (h : IsWord v) : s32 (u32 v) = v := by
  unfold IsWord wordMin wordMax at h
  unfold s32 u32
  rw [BitVec.toInt_ofInt, Int.bmod_eq_of_le] <;> omega

@[simp] theorem u32_s32 (p : Word) : u32 (s32 p) = p := BitVec.ofInt_toInt

theorem isWord_sat32 (v : Int) : IsWord (sat32 v) := by
  unfold IsWord sat32 wordMin wordMax
  split_ifs <;> omega

theorem sat32_of_isWord {v : Int} (h : IsWord v) : sat32 v = v := by
  unfold IsWord wordMin wordMax at h
  unfold sat32 wordMin wordMax
  split_ifs <;> omega

theorem isWord_sadd (a b : Int) : IsWord (sadd a b) := isWord_sat32 _

theorem isWord_ssub (a b : Int) : IsWord (ssub a b) := isWord_sat32 _

theorem isWord_smul31 (a b : Int) : IsWord (smul31 a b) := isWord_sat32 _

theorem isWord_smulF (frac : Config.Frac) (a b : Int) : IsWord (smulF frac a b) := isWord_sat32 _

theorem isWord_wrap32 (v : Int) : IsWord (wrap32 v) := isWord_s32 _

theorem isWord_herm (p0 p1 m0 m1 t : Int) : IsWord (herm p0 p1 m0 m1 t) := isWord_sat32 _

theorem isWord_uvec_sin (theta : Int) : IsWord (uvec theta).sin := isWord_herm _ _ _ _ _

theorem isWord_uvec_cos (theta : Int) : IsWord (uvec theta).cos := isWord_herm _ _ _ _ _

@[simp] theorem s32_u32_sat32 (v : Int) : s32 (u32 (sat32 v)) = sat32 v := s32_u32_of_isWord (isWord_sat32 v)

@[simp] theorem s32_u32_sadd (a b : Int) : s32 (u32 (sadd a b)) = sadd a b := s32_u32_of_isWord (isWord_sadd a b)

@[simp] theorem s32_u32_ssub (a b : Int) : s32 (u32 (ssub a b)) = ssub a b := s32_u32_of_isWord (isWord_ssub a b)

@[simp] theorem s32_u32_smul31 (a b : Int) : s32 (u32 (smul31 a b)) = smul31 a b :=
  s32_u32_of_isWord (isWord_smul31 a b)

@[simp] theorem s32_u32_uvec_sin (theta : Int) : s32 (u32 (uvec theta).sin) = (uvec theta).sin :=
  s32_u32_of_isWord (isWord_uvec_sin theta)

@[simp] theorem s32_u32_uvec_cos (theta : Int) : s32 (u32 (uvec theta).cos) = (uvec theta).cos :=
  s32_u32_of_isWord (isWord_uvec_cos theta)

/-- A value in the interval a clamp cuts to stays; any other goes to the nearer end. -/
theorem clamp_bounds {v lo hi : Int} (h : lo ≤ hi) : lo ≤ clamp v lo hi ∧ clamp v lo hi ≤ hi := by
  unfold clamp
  split_ifs <;> omega

theorem clamp_eq_min_max {v lo hi : Int} (h : lo ≤ hi) : clamp v lo hi = min (max v lo) hi := by
  unfold clamp
  split_ifs <;> omega

/-- A clamp to a symmetric interval keeps a word a word. -/
theorem isWord_clamp {v mx : Int} (h : IsWord v) (h0 : 0 ≤ mx) : IsWord (clamp v (-mx) mx) := by
  unfold IsWord wordMin wordMax at h ⊢
  unfold clamp
  split_ifs <;> omega

theorem uns_nonneg (p : Word) : 0 ≤ uns p := Int.natCast_nonneg _

end Sys2Proof.Machine
end

