-- ==== Sys2Proof/Laws/Ops.lean ====
section
/-! SUPPORT. The shared operations over the register file: reading back what was written, what a write leaves alone, and the
register map. -/

namespace Sys2Proof.Machine

@[simp] theorem Six.get_set (s : Six) (i j : Fin 6) (v : Word) :
    (s.set i v).get j = if j = i then v else s.get j := by
  fin_cases i <;> fin_cases j <;> rfl

@[simp] theorem Four.get_set {α : Type} (s : Four α) (i j : Fin 4) (v : α) :
    (s.set i v).get j = if j = i then v else s.get j := by
  fin_cases i <;> fin_cases j <;> rfl

@[simp] theorem PiRegs.get_set (p : PiRegs) (f g : PiField) (v : Word) :
    (p.set f v).get g = if g = f then v else p.get g := by
  cases f <;> cases g <;> rfl

@[simp] theorem TermRegs.get_set (t : TermRegs) (f g : TermField) (v : Word) :
    (t.set f v).get g = if g = f then v else t.get g := by
  cases f <;> cases g <;> rfl

/-- A register reads back what was written to it. -/
@[simp] theorem Regs.get_set_same (r : Regs) (x : Reg) (v : Word) : (r.set x v).get x = v := by
  cases x <;> simp [Regs.get, Regs.set]

/-- Every other register reads as before. -/
theorem Regs.get_set_ne (r : Regs) {x y : Reg} (v : Word) (h : y ≠ x) : (r.set x v).get y = r.get y := by
  cases x <;> cases y <;> first
    | rfl
    | exact absurd rfl h
    | (simp only [ne_eq, Reg.inp.injEq, Reg.out.injEq] at h; simp only [Regs.get, Regs.set, Six.get_set, if_neg h]; done)
    | (simp only [ne_eq, Reg.pi.injEq, Reg.term.injEq, not_and] at h
       simp only [Regs.get, Regs.set, Four.get_set]
       split
       · rename_i e
         simp [e, h e]
       · rfl)

/-- Raising a fault sets its bit and leaves every other register alone (60_exceptions.md R316). -/
theorem Regs.raise_get (r : Regs) (f : StickyFault) (x : Reg) :
    (r.raise f).get x = if x = .status then r.status ||| f.mask else r.get x := by
  cases x <;> rfl

/-- A write of STATUS leaves every other register alone (10_state.md R27). -/
theorem Regs.clearFaults_get (r : Regs) (v : Word) (x : Reg) :
    (r.clearFaults v).get x = if x = .status then r.status &&& ~~~(v &&& statusMask) else r.get x := by
  cases x <;> rfl

/-- A host write to a plain register: the masked value there, nothing else (10_state.md R46). -/
theorem Regs.hostWrite_get (r : Regs) (x y : Reg) (v : Word) :
    (r.hostWrite x v).get y = if y = x then v &&& x.mask else r.get y := by
  by_cases h : y = x
  · subst h; simp [Regs.hostWrite]
  · simp [Regs.hostWrite, Regs.get_set_ne _ _ h, h]

/-- The list of the registers holds every one. -/
theorem Reg.mem_all (x : Reg) : x ∈ Reg.all := by
  cases x with
  | inp i => revert i; decide
  | out i => revert i; decide
  | pi i f => cases f <;> revert i <;> decide
  | term j f => cases f <;> revert j <;> decide
  | _ => decide

/-- There are 76 registers (10_state.md R20, R45). -/
theorem Reg.all_length : Reg.all.length = 76 := by decide

/-- No two registers share an offset, and every offset is a multiple of 4 below 0x200 (10_state.md R45). -/
theorem Reg.offsets_apart : (Reg.all.map Reg.offset).Nodup := by decide

theorem Reg.offset_in_block (x : Reg) : x.offset % 4 = 0 ∧ x.offset < 0x200 := by
  cases x with
  | inp i => simp only [Reg.offset]; omega
  | out i => simp only [Reg.offset]; omega
  | pi i f => cases f <;> simp only [Reg.offset, PiField.offset] <;> omega
  | term j f => cases f <;> simp only [Reg.offset, TermField.offset] <;> omega
  | _ => decide

/-- Two register files with the same contents are the same (10_state.md R20: there is no other state). -/
theorem Regs.eq_of_get {r r' : Regs} (h : ∀ x, r.get x = r'.get x) : r = r' := by
  have six : ∀ s s' : Six, (∀ i, s.get i = s'.get i) → s = s' := fun s s' e => by
    have e0 := e 0; have e1 := e 1; have e2 := e 2; have e3 := e 3; have e4 := e 4; have e5 := e 5
    cases s; cases s'; simp_all [Six.get]
  have four : ∀ {α : Type} (s s' : Four α), (∀ i, s.get i = s'.get i) → s = s' := fun s s' e => by
    have e0 := e 0; have e1 := e 1; have e2 := e 2; have e3 := e 3
    cases s; cases s'; simp_all [Four.get]
  have pi : ∀ p p' : PiRegs, (∀ f, p.get f = p'.get f) → p = p' := fun p p' e => by
    have e0 := e .kp; have e1 := e .ki; have e2 := e .maxi; have e3 := e .integ
    cases p; cases p'; simp_all [PiRegs.get]
  have term : ∀ p p' : TermRegs, (∀ f, p.get f = p'.get f) → p = p' := fun p p' e => by
    have e0 := e .alpha; have e1 := e .beta; have e2 := e .cosinc
    have e3 := e .sininc; have e4 := e .kalpha; have e5 := e .kbeta
    cases p; cases p'; simp_all [TermRegs.get]
  have hi := six _ _ fun i => h (.inp i)
  have ho := six _ _ fun i => h (.out i)
  have hp := four _ _ fun i => pi _ _ fun f => h (.pi i f)
  have ht := four _ _ fun i => term _ _ fun f => h (.term i f)
  have h1 := h .cmd; have h2 := h .status; have h3 := h .ctrl; have h4 := h .fref; have h5 := h .fmin
  have h6 := h .nomticks; have h7 := h .lpfk; have h8 := h .acc; have h9 := h .err; have h10 := h .dposBar
  have h11 := h .qposBar; have h12 := h .dnegBar; have h13 := h .qnegBar; have h14 := h .theta
  have h15 := h .sin; have h16 := h .cos; have h17 := h .ferr; have h18 := h .feff; have h19 := h .dqD
  have h20 := h .dqQ; have h21 := h .dqnD; have h22 := h .dqnQ; have h23 := h .reload; have h24 := h .carry
  cases r; cases r'
  simp_all [Regs.get]

/-- The four byte lanes of a word are the word (20_memory.md R73). -/
theorem lanes_of_word (w : Word) : lane w 3 ++ lane w 2 ++ lane w 1 ++ lane w 0 = w := by
  apply BitVec.eq_of_getLsbD_eq
  intro i hi
  simp only [lane, BitVec.getLsbD_append, BitVec.getLsbD_extractLsb']
  have h : i < 32 := by omega
  interval_cases i <;> simp

end Sys2Proof.Machine
end

