-- ==== Sys2Proof/Laws/State.lean ====
section
/-! SUPPORT. For each named update of the state and of the register file, one lemma for each field: what it becomes, or that it
stays. Each is true by unfolding the one definition. -/

namespace Sys2Proof.Machine

@[simp] theorem State.logRead_regs (s : State) (v : Word) : (s.logRead v).regs = s.regs := rfl
@[simp] theorem State.logRead_frac (s : State) (v : Word) : (s.logRead v).frac = s.frac := rfl
@[simp] theorem State.logRead_pending (s : State) (v : Word) : (s.logRead v).pending = s.pending := rfl
@[simp] theorem State.logRead_reads (s : State) (v : Word) : (s.logRead v).reads = s.reads ++ [v] := rfl
@[simp] theorem State.issueWord_regs (s : State) (v : Word) : (s.issueWord v).regs = s.regs := rfl
@[simp] theorem State.issueWord_frac (s : State) (v : Word) : (s.issueWord v).frac = s.frac := rfl
@[simp] theorem State.issueWord_pending (s : State) (v : Word) : (s.issueWord v).pending = .write 0x000 4 v :: s.pending := rfl
@[simp] theorem State.issueWord_reads (s : State) (v : Word) : (s.issueWord v).reads = s.reads := rfl
@[simp] theorem State.badAccess_regs (s : State) : s.badAccess.regs = s.regs.raise .badAddress := rfl
@[simp] theorem State.badAccess_frac (s : State) : s.badAccess.frac = s.frac := rfl
@[simp] theorem State.badAccess_pending (s : State) : s.badAccess.pending = s.pending := rfl
@[simp] theorem State.badAccess_reads (s : State) : s.badAccess.reads = s.reads := rfl

@[simp] theorem Regs.raise_cmd (r : Regs) (f : StickyFault) : (r.raise f).cmd = r.cmd := rfl
@[simp] theorem Regs.raise_status (r : Regs) (f : StickyFault) : (r.raise f).status = statusRaise f r.status := rfl
@[simp] theorem Regs.raise_ctrl (r : Regs) (f : StickyFault) : (r.raise f).ctrl = r.ctrl := rfl
@[simp] theorem Regs.raise_inp (r : Regs) (f : StickyFault) : (r.raise f).inp = r.inp := rfl
@[simp] theorem Regs.raise_out (r : Regs) (f : StickyFault) : (r.raise f).out = r.out := rfl
@[simp] theorem Regs.raise_fref (r : Regs) (f : StickyFault) : (r.raise f).fref = r.fref := rfl
@[simp] theorem Regs.raise_fmin (r : Regs) (f : StickyFault) : (r.raise f).fmin = r.fmin := rfl
@[simp] theorem Regs.raise_nomticks (r : Regs) (f : StickyFault) : (r.raise f).nomticks = r.nomticks := rfl
@[simp] theorem Regs.raise_lpfk (r : Regs) (f : StickyFault) : (r.raise f).lpfk = r.lpfk := rfl
@[simp] theorem Regs.raise_pi (r : Regs) (f : StickyFault) : (r.raise f).pi = r.pi := rfl
@[simp] theorem Regs.raise_term (r : Regs) (f : StickyFault) : (r.raise f).term = r.term := rfl
@[simp] theorem Regs.raise_acc (r : Regs) (f : StickyFault) : (r.raise f).acc = r.acc := rfl
@[simp] theorem Regs.raise_err (r : Regs) (f : StickyFault) : (r.raise f).err = r.err := rfl
@[simp] theorem Regs.raise_dposBar (r : Regs) (f : StickyFault) : (r.raise f).dposBar = r.dposBar := rfl
@[simp] theorem Regs.raise_qposBar (r : Regs) (f : StickyFault) : (r.raise f).qposBar = r.qposBar := rfl
@[simp] theorem Regs.raise_dnegBar (r : Regs) (f : StickyFault) : (r.raise f).dnegBar = r.dnegBar := rfl
@[simp] theorem Regs.raise_qnegBar (r : Regs) (f : StickyFault) : (r.raise f).qnegBar = r.qnegBar := rfl
@[simp] theorem Regs.raise_theta (r : Regs) (f : StickyFault) : (r.raise f).theta = r.theta := rfl
@[simp] theorem Regs.raise_sin (r : Regs) (f : StickyFault) : (r.raise f).sin = r.sin := rfl
@[simp] theorem Regs.raise_cos (r : Regs) (f : StickyFault) : (r.raise f).cos = r.cos := rfl
@[simp] theorem Regs.raise_ferr (r : Regs) (f : StickyFault) : (r.raise f).ferr = r.ferr := rfl
@[simp] theorem Regs.raise_feff (r : Regs) (f : StickyFault) : (r.raise f).feff = r.feff := rfl
@[simp] theorem Regs.raise_dqD (r : Regs) (f : StickyFault) : (r.raise f).dqD = r.dqD := rfl
@[simp] theorem Regs.raise_dqQ (r : Regs) (f : StickyFault) : (r.raise f).dqQ = r.dqQ := rfl
@[simp] theorem Regs.raise_dqnD (r : Regs) (f : StickyFault) : (r.raise f).dqnD = r.dqnD := rfl
@[simp] theorem Regs.raise_dqnQ (r : Regs) (f : StickyFault) : (r.raise f).dqnQ = r.dqnQ := rfl
@[simp] theorem Regs.raise_reload (r : Regs) (f : StickyFault) : (r.raise f).reload = r.reload := rfl
@[simp] theorem Regs.raise_carry (r : Regs) (f : StickyFault) : (r.raise f).carry = r.carry := rfl

@[simp] theorem Regs.clearFaults_cmd (r : Regs) (v : Word) : (r.clearFaults v).cmd = r.cmd := rfl
@[simp] theorem Regs.clearFaults_status (r : Regs) (v : Word) : (r.clearFaults v).status = statusClear v r.status := rfl
@[simp] theorem Regs.clearFaults_ctrl (r : Regs) (v : Word) : (r.clearFaults v).ctrl = r.ctrl := rfl
@[simp] theorem Regs.clearFaults_inp (r : Regs) (v : Word) : (r.clearFaults v).inp = r.inp := rfl
@[simp] theorem Regs.clearFaults_out (r : Regs) (v : Word) : (r.clearFaults v).out = r.out := rfl
@[simp] theorem Regs.clearFaults_fref (r : Regs) (v : Word) : (r.clearFaults v).fref = r.fref := rfl
@[simp] theorem Regs.clearFaults_fmin (r : Regs) (v : Word) : (r.clearFaults v).fmin = r.fmin := rfl
@[simp] theorem Regs.clearFaults_nomticks (r : Regs) (v : Word) : (r.clearFaults v).nomticks = r.nomticks := rfl
@[simp] theorem Regs.clearFaults_lpfk (r : Regs) (v : Word) : (r.clearFaults v).lpfk = r.lpfk := rfl
@[simp] theorem Regs.clearFaults_pi (r : Regs) (v : Word) : (r.clearFaults v).pi = r.pi := rfl
@[simp] theorem Regs.clearFaults_term (r : Regs) (v : Word) : (r.clearFaults v).term = r.term := rfl
@[simp] theorem Regs.clearFaults_acc (r : Regs) (v : Word) : (r.clearFaults v).acc = r.acc := rfl
@[simp] theorem Regs.clearFaults_err (r : Regs) (v : Word) : (r.clearFaults v).err = r.err := rfl
@[simp] theorem Regs.clearFaults_dposBar (r : Regs) (v : Word) : (r.clearFaults v).dposBar = r.dposBar := rfl
@[simp] theorem Regs.clearFaults_qposBar (r : Regs) (v : Word) : (r.clearFaults v).qposBar = r.qposBar := rfl
@[simp] theorem Regs.clearFaults_dnegBar (r : Regs) (v : Word) : (r.clearFaults v).dnegBar = r.dnegBar := rfl
@[simp] theorem Regs.clearFaults_qnegBar (r : Regs) (v : Word) : (r.clearFaults v).qnegBar = r.qnegBar := rfl
@[simp] theorem Regs.clearFaults_theta (r : Regs) (v : Word) : (r.clearFaults v).theta = r.theta := rfl
@[simp] theorem Regs.clearFaults_sin (r : Regs) (v : Word) : (r.clearFaults v).sin = r.sin := rfl
@[simp] theorem Regs.clearFaults_cos (r : Regs) (v : Word) : (r.clearFaults v).cos = r.cos := rfl
@[simp] theorem Regs.clearFaults_ferr (r : Regs) (v : Word) : (r.clearFaults v).ferr = r.ferr := rfl
@[simp] theorem Regs.clearFaults_feff (r : Regs) (v : Word) : (r.clearFaults v).feff = r.feff := rfl
@[simp] theorem Regs.clearFaults_dqD (r : Regs) (v : Word) : (r.clearFaults v).dqD = r.dqD := rfl
@[simp] theorem Regs.clearFaults_dqQ (r : Regs) (v : Word) : (r.clearFaults v).dqQ = r.dqQ := rfl
@[simp] theorem Regs.clearFaults_dqnD (r : Regs) (v : Word) : (r.clearFaults v).dqnD = r.dqnD := rfl
@[simp] theorem Regs.clearFaults_dqnQ (r : Regs) (v : Word) : (r.clearFaults v).dqnQ = r.dqnQ := rfl
@[simp] theorem Regs.clearFaults_reload (r : Regs) (v : Word) : (r.clearFaults v).reload = r.reload := rfl
@[simp] theorem Regs.clearFaults_carry (r : Regs) (v : Word) : (r.clearFaults v).carry = r.carry := rfl

@[simp] theorem Regs.result1_cmd (r : Regs) (a : Int) : (r.result1 a).cmd = r.cmd := rfl
@[simp] theorem Regs.result1_status (r : Regs) (a : Int) : (r.result1 a).status = r.status := rfl
@[simp] theorem Regs.result1_ctrl (r : Regs) (a : Int) : (r.result1 a).ctrl = r.ctrl := rfl
@[simp] theorem Regs.result1_inp (r : Regs) (a : Int) : (r.result1 a).inp = r.inp := rfl
@[simp] theorem Regs.result1_out (r : Regs) (a : Int) : (r.result1 a).out = { r.out with x0 := u32 a } := rfl
@[simp] theorem Regs.result1_fref (r : Regs) (a : Int) : (r.result1 a).fref = r.fref := rfl
@[simp] theorem Regs.result1_fmin (r : Regs) (a : Int) : (r.result1 a).fmin = r.fmin := rfl
@[simp] theorem Regs.result1_nomticks (r : Regs) (a : Int) : (r.result1 a).nomticks = r.nomticks := rfl
@[simp] theorem Regs.result1_lpfk (r : Regs) (a : Int) : (r.result1 a).lpfk = r.lpfk := rfl
@[simp] theorem Regs.result1_pi (r : Regs) (a : Int) : (r.result1 a).pi = r.pi := rfl
@[simp] theorem Regs.result1_term (r : Regs) (a : Int) : (r.result1 a).term = r.term := rfl
@[simp] theorem Regs.result1_acc (r : Regs) (a : Int) : (r.result1 a).acc = r.acc := rfl
@[simp] theorem Regs.result1_err (r : Regs) (a : Int) : (r.result1 a).err = r.err := rfl
@[simp] theorem Regs.result1_dposBar (r : Regs) (a : Int) : (r.result1 a).dposBar = r.dposBar := rfl
@[simp] theorem Regs.result1_qposBar (r : Regs) (a : Int) : (r.result1 a).qposBar = r.qposBar := rfl
@[simp] theorem Regs.result1_dnegBar (r : Regs) (a : Int) : (r.result1 a).dnegBar = r.dnegBar := rfl
@[simp] theorem Regs.result1_qnegBar (r : Regs) (a : Int) : (r.result1 a).qnegBar = r.qnegBar := rfl
@[simp] theorem Regs.result1_theta (r : Regs) (a : Int) : (r.result1 a).theta = r.theta := rfl
@[simp] theorem Regs.result1_sin (r : Regs) (a : Int) : (r.result1 a).sin = r.sin := rfl
@[simp] theorem Regs.result1_cos (r : Regs) (a : Int) : (r.result1 a).cos = r.cos := rfl
@[simp] theorem Regs.result1_ferr (r : Regs) (a : Int) : (r.result1 a).ferr = r.ferr := rfl
@[simp] theorem Regs.result1_feff (r : Regs) (a : Int) : (r.result1 a).feff = r.feff := rfl
@[simp] theorem Regs.result1_dqD (r : Regs) (a : Int) : (r.result1 a).dqD = r.dqD := rfl
@[simp] theorem Regs.result1_dqQ (r : Regs) (a : Int) : (r.result1 a).dqQ = r.dqQ := rfl
@[simp] theorem Regs.result1_dqnD (r : Regs) (a : Int) : (r.result1 a).dqnD = r.dqnD := rfl
@[simp] theorem Regs.result1_dqnQ (r : Regs) (a : Int) : (r.result1 a).dqnQ = r.dqnQ := rfl
@[simp] theorem Regs.result1_reload (r : Regs) (a : Int) : (r.result1 a).reload = r.reload := rfl
@[simp] theorem Regs.result1_carry (r : Regs) (a : Int) : (r.result1 a).carry = r.carry := rfl

@[simp] theorem Regs.result2_cmd (r : Regs) (a b : Int) : (r.result2 a b).cmd = r.cmd := rfl
@[simp] theorem Regs.result2_status (r : Regs) (a b : Int) : (r.result2 a b).status = r.status := rfl
@[simp] theorem Regs.result2_ctrl (r : Regs) (a b : Int) : (r.result2 a b).ctrl = r.ctrl := rfl
@[simp] theorem Regs.result2_inp (r : Regs) (a b : Int) : (r.result2 a b).inp = r.inp := rfl
@[simp] theorem Regs.result2_out (r : Regs) (a b : Int) : (r.result2 a b).out = { r.out with x0 := u32 a, x1 := u32 b } := rfl
@[simp] theorem Regs.result2_fref (r : Regs) (a b : Int) : (r.result2 a b).fref = r.fref := rfl
@[simp] theorem Regs.result2_fmin (r : Regs) (a b : Int) : (r.result2 a b).fmin = r.fmin := rfl
@[simp] theorem Regs.result2_nomticks (r : Regs) (a b : Int) : (r.result2 a b).nomticks = r.nomticks := rfl
@[simp] theorem Regs.result2_lpfk (r : Regs) (a b : Int) : (r.result2 a b).lpfk = r.lpfk := rfl
@[simp] theorem Regs.result2_pi (r : Regs) (a b : Int) : (r.result2 a b).pi = r.pi := rfl
@[simp] theorem Regs.result2_term (r : Regs) (a b : Int) : (r.result2 a b).term = r.term := rfl
@[simp] theorem Regs.result2_acc (r : Regs) (a b : Int) : (r.result2 a b).acc = r.acc := rfl
@[simp] theorem Regs.result2_err (r : Regs) (a b : Int) : (r.result2 a b).err = r.err := rfl
@[simp] theorem Regs.result2_dposBar (r : Regs) (a b : Int) : (r.result2 a b).dposBar = r.dposBar := rfl
@[simp] theorem Regs.result2_qposBar (r : Regs) (a b : Int) : (r.result2 a b).qposBar = r.qposBar := rfl
@[simp] theorem Regs.result2_dnegBar (r : Regs) (a b : Int) : (r.result2 a b).dnegBar = r.dnegBar := rfl
@[simp] theorem Regs.result2_qnegBar (r : Regs) (a b : Int) : (r.result2 a b).qnegBar = r.qnegBar := rfl
@[simp] theorem Regs.result2_theta (r : Regs) (a b : Int) : (r.result2 a b).theta = r.theta := rfl
@[simp] theorem Regs.result2_sin (r : Regs) (a b : Int) : (r.result2 a b).sin = r.sin := rfl
@[simp] theorem Regs.result2_cos (r : Regs) (a b : Int) : (r.result2 a b).cos = r.cos := rfl
@[simp] theorem Regs.result2_ferr (r : Regs) (a b : Int) : (r.result2 a b).ferr = r.ferr := rfl
@[simp] theorem Regs.result2_feff (r : Regs) (a b : Int) : (r.result2 a b).feff = r.feff := rfl
@[simp] theorem Regs.result2_dqD (r : Regs) (a b : Int) : (r.result2 a b).dqD = r.dqD := rfl
@[simp] theorem Regs.result2_dqQ (r : Regs) (a b : Int) : (r.result2 a b).dqQ = r.dqQ := rfl
@[simp] theorem Regs.result2_dqnD (r : Regs) (a b : Int) : (r.result2 a b).dqnD = r.dqnD := rfl
@[simp] theorem Regs.result2_dqnQ (r : Regs) (a b : Int) : (r.result2 a b).dqnQ = r.dqnQ := rfl
@[simp] theorem Regs.result2_reload (r : Regs) (a b : Int) : (r.result2 a b).reload = r.reload := rfl
@[simp] theorem Regs.result2_carry (r : Regs) (a b : Int) : (r.result2 a b).carry = r.carry := rfl

@[simp] theorem Regs.result3_cmd (r : Regs) (a b c : Int) : (r.result3 a b c).cmd = r.cmd := rfl
@[simp] theorem Regs.result3_status (r : Regs) (a b c : Int) : (r.result3 a b c).status = r.status := rfl
@[simp] theorem Regs.result3_ctrl (r : Regs) (a b c : Int) : (r.result3 a b c).ctrl = r.ctrl := rfl
@[simp] theorem Regs.result3_inp (r : Regs) (a b c : Int) : (r.result3 a b c).inp = r.inp := rfl
@[simp] theorem Regs.result3_out (r : Regs) (a b c : Int) : (r.result3 a b c).out = { r.out with x0 := u32 a, x1 := u32 b, x2 := u32 c } := rfl
@[simp] theorem Regs.result3_fref (r : Regs) (a b c : Int) : (r.result3 a b c).fref = r.fref := rfl
@[simp] theorem Regs.result3_fmin (r : Regs) (a b c : Int) : (r.result3 a b c).fmin = r.fmin := rfl
@[simp] theorem Regs.result3_nomticks (r : Regs) (a b c : Int) : (r.result3 a b c).nomticks = r.nomticks := rfl
@[simp] theorem Regs.result3_lpfk (r : Regs) (a b c : Int) : (r.result3 a b c).lpfk = r.lpfk := rfl
@[simp] theorem Regs.result3_pi (r : Regs) (a b c : Int) : (r.result3 a b c).pi = r.pi := rfl
@[simp] theorem Regs.result3_term (r : Regs) (a b c : Int) : (r.result3 a b c).term = r.term := rfl
@[simp] theorem Regs.result3_acc (r : Regs) (a b c : Int) : (r.result3 a b c).acc = r.acc := rfl
@[simp] theorem Regs.result3_err (r : Regs) (a b c : Int) : (r.result3 a b c).err = r.err := rfl
@[simp] theorem Regs.result3_dposBar (r : Regs) (a b c : Int) : (r.result3 a b c).dposBar = r.dposBar := rfl
@[simp] theorem Regs.result3_qposBar (r : Regs) (a b c : Int) : (r.result3 a b c).qposBar = r.qposBar := rfl
@[simp] theorem Regs.result3_dnegBar (r : Regs) (a b c : Int) : (r.result3 a b c).dnegBar = r.dnegBar := rfl
@[simp] theorem Regs.result3_qnegBar (r : Regs) (a b c : Int) : (r.result3 a b c).qnegBar = r.qnegBar := rfl
@[simp] theorem Regs.result3_theta (r : Regs) (a b c : Int) : (r.result3 a b c).theta = r.theta := rfl
@[simp] theorem Regs.result3_sin (r : Regs) (a b c : Int) : (r.result3 a b c).sin = r.sin := rfl
@[simp] theorem Regs.result3_cos (r : Regs) (a b c : Int) : (r.result3 a b c).cos = r.cos := rfl
@[simp] theorem Regs.result3_ferr (r : Regs) (a b c : Int) : (r.result3 a b c).ferr = r.ferr := rfl
@[simp] theorem Regs.result3_feff (r : Regs) (a b c : Int) : (r.result3 a b c).feff = r.feff := rfl
@[simp] theorem Regs.result3_dqD (r : Regs) (a b c : Int) : (r.result3 a b c).dqD = r.dqD := rfl
@[simp] theorem Regs.result3_dqQ (r : Regs) (a b c : Int) : (r.result3 a b c).dqQ = r.dqQ := rfl
@[simp] theorem Regs.result3_dqnD (r : Regs) (a b c : Int) : (r.result3 a b c).dqnD = r.dqnD := rfl
@[simp] theorem Regs.result3_dqnQ (r : Regs) (a b c : Int) : (r.result3 a b c).dqnQ = r.dqnQ := rfl
@[simp] theorem Regs.result3_reload (r : Regs) (a b c : Int) : (r.result3 a b c).reload = r.reload := rfl
@[simp] theorem Regs.result3_carry (r : Regs) (a b c : Int) : (r.result3 a b c).carry = r.carry := rfl

@[simp] theorem Regs.result4_cmd (r : Regs) (a b c d : Int) : (r.result4 a b c d).cmd = r.cmd := rfl
@[simp] theorem Regs.result4_status (r : Regs) (a b c d : Int) : (r.result4 a b c d).status = r.status := rfl
@[simp] theorem Regs.result4_ctrl (r : Regs) (a b c d : Int) : (r.result4 a b c d).ctrl = r.ctrl := rfl
@[simp] theorem Regs.result4_inp (r : Regs) (a b c d : Int) : (r.result4 a b c d).inp = r.inp := rfl
@[simp] theorem Regs.result4_out (r : Regs) (a b c d : Int) : (r.result4 a b c d).out = { r.out with x0 := u32 a, x1 := u32 b, x2 := u32 c, x3 := u32 d } := rfl
@[simp] theorem Regs.result4_fref (r : Regs) (a b c d : Int) : (r.result4 a b c d).fref = r.fref := rfl
@[simp] theorem Regs.result4_fmin (r : Regs) (a b c d : Int) : (r.result4 a b c d).fmin = r.fmin := rfl
@[simp] theorem Regs.result4_nomticks (r : Regs) (a b c d : Int) : (r.result4 a b c d).nomticks = r.nomticks := rfl
@[simp] theorem Regs.result4_lpfk (r : Regs) (a b c d : Int) : (r.result4 a b c d).lpfk = r.lpfk := rfl
@[simp] theorem Regs.result4_pi (r : Regs) (a b c d : Int) : (r.result4 a b c d).pi = r.pi := rfl
@[simp] theorem Regs.result4_term (r : Regs) (a b c d : Int) : (r.result4 a b c d).term = r.term := rfl
@[simp] theorem Regs.result4_acc (r : Regs) (a b c d : Int) : (r.result4 a b c d).acc = r.acc := rfl
@[simp] theorem Regs.result4_err (r : Regs) (a b c d : Int) : (r.result4 a b c d).err = r.err := rfl
@[simp] theorem Regs.result4_dposBar (r : Regs) (a b c d : Int) : (r.result4 a b c d).dposBar = r.dposBar := rfl
@[simp] theorem Regs.result4_qposBar (r : Regs) (a b c d : Int) : (r.result4 a b c d).qposBar = r.qposBar := rfl
@[simp] theorem Regs.result4_dnegBar (r : Regs) (a b c d : Int) : (r.result4 a b c d).dnegBar = r.dnegBar := rfl
@[simp] theorem Regs.result4_qnegBar (r : Regs) (a b c d : Int) : (r.result4 a b c d).qnegBar = r.qnegBar := rfl
@[simp] theorem Regs.result4_theta (r : Regs) (a b c d : Int) : (r.result4 a b c d).theta = r.theta := rfl
@[simp] theorem Regs.result4_sin (r : Regs) (a b c d : Int) : (r.result4 a b c d).sin = r.sin := rfl
@[simp] theorem Regs.result4_cos (r : Regs) (a b c d : Int) : (r.result4 a b c d).cos = r.cos := rfl
@[simp] theorem Regs.result4_ferr (r : Regs) (a b c d : Int) : (r.result4 a b c d).ferr = r.ferr := rfl
@[simp] theorem Regs.result4_feff (r : Regs) (a b c d : Int) : (r.result4 a b c d).feff = r.feff := rfl
@[simp] theorem Regs.result4_dqD (r : Regs) (a b c d : Int) : (r.result4 a b c d).dqD = r.dqD := rfl
@[simp] theorem Regs.result4_dqQ (r : Regs) (a b c d : Int) : (r.result4 a b c d).dqQ = r.dqQ := rfl
@[simp] theorem Regs.result4_dqnD (r : Regs) (a b c d : Int) : (r.result4 a b c d).dqnD = r.dqnD := rfl
@[simp] theorem Regs.result4_dqnQ (r : Regs) (a b c d : Int) : (r.result4 a b c d).dqnQ = r.dqnQ := rfl
@[simp] theorem Regs.result4_reload (r : Regs) (a b c d : Int) : (r.result4 a b c d).reload = r.reload := rfl
@[simp] theorem Regs.result4_carry (r : Regs) (a b c d : Int) : (r.result4 a b c d).carry = r.carry := rfl

@[simp] theorem Regs.result6_cmd (r : Regs) (a b c d e g : Int) : (r.result6 a b c d e g).cmd = r.cmd := rfl
@[simp] theorem Regs.result6_status (r : Regs) (a b c d e g : Int) : (r.result6 a b c d e g).status = r.status := rfl
@[simp] theorem Regs.result6_ctrl (r : Regs) (a b c d e g : Int) : (r.result6 a b c d e g).ctrl = r.ctrl := rfl
@[simp] theorem Regs.result6_inp (r : Regs) (a b c d e g : Int) : (r.result6 a b c d e g).inp = r.inp := rfl
@[simp] theorem Regs.result6_out (r : Regs) (a b c d e g : Int) : (r.result6 a b c d e g).out = ⟨u32 a, u32 b, u32 c, u32 d, u32 e, u32 g⟩ := rfl
@[simp] theorem Regs.result6_fref (r : Regs) (a b c d e g : Int) : (r.result6 a b c d e g).fref = r.fref := rfl
@[simp] theorem Regs.result6_fmin (r : Regs) (a b c d e g : Int) : (r.result6 a b c d e g).fmin = r.fmin := rfl
@[simp] theorem Regs.result6_nomticks (r : Regs) (a b c d e g : Int) : (r.result6 a b c d e g).nomticks = r.nomticks := rfl
@[simp] theorem Regs.result6_lpfk (r : Regs) (a b c d e g : Int) : (r.result6 a b c d e g).lpfk = r.lpfk := rfl
@[simp] theorem Regs.result6_pi (r : Regs) (a b c d e g : Int) : (r.result6 a b c d e g).pi = r.pi := rfl
@[simp] theorem Regs.result6_term (r : Regs) (a b c d e g : Int) : (r.result6 a b c d e g).term = r.term := rfl
@[simp] theorem Regs.result6_acc (r : Regs) (a b c d e g : Int) : (r.result6 a b c d e g).acc = r.acc := rfl
@[simp] theorem Regs.result6_err (r : Regs) (a b c d e g : Int) : (r.result6 a b c d e g).err = r.err := rfl
@[simp] theorem Regs.result6_dposBar (r : Regs) (a b c d e g : Int) : (r.result6 a b c d e g).dposBar = r.dposBar := rfl
@[simp] theorem Regs.result6_qposBar (r : Regs) (a b c d e g : Int) : (r.result6 a b c d e g).qposBar = r.qposBar := rfl
@[simp] theorem Regs.result6_dnegBar (r : Regs) (a b c d e g : Int) : (r.result6 a b c d e g).dnegBar = r.dnegBar := rfl
@[simp] theorem Regs.result6_qnegBar (r : Regs) (a b c d e g : Int) : (r.result6 a b c d e g).qnegBar = r.qnegBar := rfl
@[simp] theorem Regs.result6_theta (r : Regs) (a b c d e g : Int) : (r.result6 a b c d e g).theta = r.theta := rfl
@[simp] theorem Regs.result6_sin (r : Regs) (a b c d e g : Int) : (r.result6 a b c d e g).sin = r.sin := rfl
@[simp] theorem Regs.result6_cos (r : Regs) (a b c d e g : Int) : (r.result6 a b c d e g).cos = r.cos := rfl
@[simp] theorem Regs.result6_ferr (r : Regs) (a b c d e g : Int) : (r.result6 a b c d e g).ferr = r.ferr := rfl
@[simp] theorem Regs.result6_feff (r : Regs) (a b c d e g : Int) : (r.result6 a b c d e g).feff = r.feff := rfl
@[simp] theorem Regs.result6_dqD (r : Regs) (a b c d e g : Int) : (r.result6 a b c d e g).dqD = r.dqD := rfl
@[simp] theorem Regs.result6_dqQ (r : Regs) (a b c d e g : Int) : (r.result6 a b c d e g).dqQ = r.dqQ := rfl
@[simp] theorem Regs.result6_dqnD (r : Regs) (a b c d e g : Int) : (r.result6 a b c d e g).dqnD = r.dqnD := rfl
@[simp] theorem Regs.result6_dqnQ (r : Regs) (a b c d e g : Int) : (r.result6 a b c d e g).dqnQ = r.dqnQ := rfl
@[simp] theorem Regs.result6_reload (r : Regs) (a b c d e g : Int) : (r.result6 a b c d e g).reload = r.reload := rfl
@[simp] theorem Regs.result6_carry (r : Regs) (a b c d e g : Int) : (r.result6 a b c d e g).carry = r.carry := rfl

@[simp] theorem Regs.piStep_cmd (r : Regs) (frac : Config.Frac) (i : Fin 4) (e : Int) : (r.piStep frac i e).cmd = r.cmd := by
  simp only [Regs.piStep]
@[simp] theorem Regs.piStep_status (r : Regs) (frac : Config.Frac) (i : Fin 4) (e : Int) : (r.piStep frac i e).status = r.status := by
  simp only [Regs.piStep]
@[simp] theorem Regs.piStep_ctrl (r : Regs) (frac : Config.Frac) (i : Fin 4) (e : Int) : (r.piStep frac i e).ctrl = r.ctrl := by
  simp only [Regs.piStep]
@[simp] theorem Regs.piStep_inp (r : Regs) (frac : Config.Frac) (i : Fin 4) (e : Int) : (r.piStep frac i e).inp = r.inp := by
  simp only [Regs.piStep]
@[simp] theorem Regs.piStep_out (r : Regs) (frac : Config.Frac) (i : Fin 4) (e : Int) : (r.piStep frac i e).out = r.out := by
  simp only [Regs.piStep]
@[simp] theorem Regs.piStep_fref (r : Regs) (frac : Config.Frac) (i : Fin 4) (e : Int) : (r.piStep frac i e).fref = r.fref := by
  simp only [Regs.piStep]
@[simp] theorem Regs.piStep_fmin (r : Regs) (frac : Config.Frac) (i : Fin 4) (e : Int) : (r.piStep frac i e).fmin = r.fmin := by
  simp only [Regs.piStep]
@[simp] theorem Regs.piStep_nomticks (r : Regs) (frac : Config.Frac) (i : Fin 4) (e : Int) : (r.piStep frac i e).nomticks = r.nomticks := by
  simp only [Regs.piStep]
@[simp] theorem Regs.piStep_lpfk (r : Regs) (frac : Config.Frac) (i : Fin 4) (e : Int) : (r.piStep frac i e).lpfk = r.lpfk := by
  simp only [Regs.piStep]
@[simp] theorem Regs.piStep_pi (r : Regs) (frac : Config.Frac) (i : Fin 4) (e : Int) : (r.piStep frac i e).pi = r.pi.set i (piUpdate frac (r.pi.get i) e).regs := by
  simp only [Regs.piStep]
@[simp] theorem Regs.piStep_term (r : Regs) (frac : Config.Frac) (i : Fin 4) (e : Int) : (r.piStep frac i e).term = r.term := by
  simp only [Regs.piStep]
@[simp] theorem Regs.piStep_acc (r : Regs) (frac : Config.Frac) (i : Fin 4) (e : Int) : (r.piStep frac i e).acc = r.acc := by
  simp only [Regs.piStep]
@[simp] theorem Regs.piStep_err (r : Regs) (frac : Config.Frac) (i : Fin 4) (e : Int) : (r.piStep frac i e).err = r.err := by
  simp only [Regs.piStep]
@[simp] theorem Regs.piStep_dposBar (r : Regs) (frac : Config.Frac) (i : Fin 4) (e : Int) : (r.piStep frac i e).dposBar = r.dposBar := by
  simp only [Regs.piStep]
@[simp] theorem Regs.piStep_qposBar (r : Regs) (frac : Config.Frac) (i : Fin 4) (e : Int) : (r.piStep frac i e).qposBar = r.qposBar := by
  simp only [Regs.piStep]
@[simp] theorem Regs.piStep_dnegBar (r : Regs) (frac : Config.Frac) (i : Fin 4) (e : Int) : (r.piStep frac i e).dnegBar = r.dnegBar := by
  simp only [Regs.piStep]
@[simp] theorem Regs.piStep_qnegBar (r : Regs) (frac : Config.Frac) (i : Fin 4) (e : Int) : (r.piStep frac i e).qnegBar = r.qnegBar := by
  simp only [Regs.piStep]
@[simp] theorem Regs.piStep_theta (r : Regs) (frac : Config.Frac) (i : Fin 4) (e : Int) : (r.piStep frac i e).theta = r.theta := by
  simp only [Regs.piStep]
@[simp] theorem Regs.piStep_sin (r : Regs) (frac : Config.Frac) (i : Fin 4) (e : Int) : (r.piStep frac i e).sin = r.sin := by
  simp only [Regs.piStep]
@[simp] theorem Regs.piStep_cos (r : Regs) (frac : Config.Frac) (i : Fin 4) (e : Int) : (r.piStep frac i e).cos = r.cos := by
  simp only [Regs.piStep]
@[simp] theorem Regs.piStep_ferr (r : Regs) (frac : Config.Frac) (i : Fin 4) (e : Int) : (r.piStep frac i e).ferr = r.ferr := by
  simp only [Regs.piStep]
@[simp] theorem Regs.piStep_feff (r : Regs) (frac : Config.Frac) (i : Fin 4) (e : Int) : (r.piStep frac i e).feff = r.feff := by
  simp only [Regs.piStep]
@[simp] theorem Regs.piStep_dqD (r : Regs) (frac : Config.Frac) (i : Fin 4) (e : Int) : (r.piStep frac i e).dqD = r.dqD := by
  simp only [Regs.piStep]
@[simp] theorem Regs.piStep_dqQ (r : Regs) (frac : Config.Frac) (i : Fin 4) (e : Int) : (r.piStep frac i e).dqQ = r.dqQ := by
  simp only [Regs.piStep]
@[simp] theorem Regs.piStep_dqnD (r : Regs) (frac : Config.Frac) (i : Fin 4) (e : Int) : (r.piStep frac i e).dqnD = r.dqnD := by
  simp only [Regs.piStep]
@[simp] theorem Regs.piStep_dqnQ (r : Regs) (frac : Config.Frac) (i : Fin 4) (e : Int) : (r.piStep frac i e).dqnQ = r.dqnQ := by
  simp only [Regs.piStep]
@[simp] theorem Regs.piStep_reload (r : Regs) (frac : Config.Frac) (i : Fin 4) (e : Int) : (r.piStep frac i e).reload = r.reload := by
  simp only [Regs.piStep]
@[simp] theorem Regs.piStep_carry (r : Regs) (frac : Config.Frac) (i : Fin 4) (e : Int) : (r.piStep frac i e).carry = r.carry := by
  simp only [Regs.piStep]

@[simp] theorem Regs.bankSample_cmd (r : Regs) (frac : Config.Frac) (m : Int) : (r.bankSample frac m).cmd = r.cmd := by
  simp only [Regs.bankSample]
@[simp] theorem Regs.bankSample_status (r : Regs) (frac : Config.Frac) (m : Int) : (r.bankSample frac m).status = r.status := by
  simp only [Regs.bankSample]
@[simp] theorem Regs.bankSample_ctrl (r : Regs) (frac : Config.Frac) (m : Int) : (r.bankSample frac m).ctrl = r.ctrl := by
  simp only [Regs.bankSample]
@[simp] theorem Regs.bankSample_inp (r : Regs) (frac : Config.Frac) (m : Int) : (r.bankSample frac m).inp = r.inp := by
  simp only [Regs.bankSample]
@[simp] theorem Regs.bankSample_out (r : Regs) (frac : Config.Frac) (m : Int) : (r.bankSample frac m).out = r.out := by
  simp only [Regs.bankSample]
@[simp] theorem Regs.bankSample_fref (r : Regs) (frac : Config.Frac) (m : Int) : (r.bankSample frac m).fref = r.fref := by
  simp only [Regs.bankSample]
@[simp] theorem Regs.bankSample_fmin (r : Regs) (frac : Config.Frac) (m : Int) : (r.bankSample frac m).fmin = r.fmin := by
  simp only [Regs.bankSample]
@[simp] theorem Regs.bankSample_nomticks (r : Regs) (frac : Config.Frac) (m : Int) : (r.bankSample frac m).nomticks = r.nomticks := by
  simp only [Regs.bankSample]
@[simp] theorem Regs.bankSample_lpfk (r : Regs) (frac : Config.Frac) (m : Int) : (r.bankSample frac m).lpfk = r.lpfk := by
  simp only [Regs.bankSample]
@[simp] theorem Regs.bankSample_pi (r : Regs) (frac : Config.Frac) (m : Int) : (r.bankSample frac m).pi = r.pi := by
  simp only [Regs.bankSample]
@[simp] theorem Regs.bankSample_term (r : Regs) (frac : Config.Frac) (m : Int) : (r.bankSample frac m).term = bankTerms frac r.term (bankError r.term m) := by
  simp only [Regs.bankSample]
@[simp] theorem Regs.bankSample_acc (r : Regs) (frac : Config.Frac) (m : Int) : (r.bankSample frac m).acc = u32 (bankEstimate (bankTerms frac r.term (bankError r.term m))) := by
  simp only [Regs.bankSample]
@[simp] theorem Regs.bankSample_err (r : Regs) (frac : Config.Frac) (m : Int) : (r.bankSample frac m).err = u32 (bankError r.term m) := by
  simp only [Regs.bankSample]
@[simp] theorem Regs.bankSample_dposBar (r : Regs) (frac : Config.Frac) (m : Int) : (r.bankSample frac m).dposBar = r.dposBar := by
  simp only [Regs.bankSample]
@[simp] theorem Regs.bankSample_qposBar (r : Regs) (frac : Config.Frac) (m : Int) : (r.bankSample frac m).qposBar = r.qposBar := by
  simp only [Regs.bankSample]
@[simp] theorem Regs.bankSample_dnegBar (r : Regs) (frac : Config.Frac) (m : Int) : (r.bankSample frac m).dnegBar = r.dnegBar := by
  simp only [Regs.bankSample]
@[simp] theorem Regs.bankSample_qnegBar (r : Regs) (frac : Config.Frac) (m : Int) : (r.bankSample frac m).qnegBar = r.qnegBar := by
  simp only [Regs.bankSample]
@[simp] theorem Regs.bankSample_theta (r : Regs) (frac : Config.Frac) (m : Int) : (r.bankSample frac m).theta = r.theta := by
  simp only [Regs.bankSample]
@[simp] theorem Regs.bankSample_sin (r : Regs) (frac : Config.Frac) (m : Int) : (r.bankSample frac m).sin = r.sin := by
  simp only [Regs.bankSample]
@[simp] theorem Regs.bankSample_cos (r : Regs) (frac : Config.Frac) (m : Int) : (r.bankSample frac m).cos = r.cos := by
  simp only [Regs.bankSample]
@[simp] theorem Regs.bankSample_ferr (r : Regs) (frac : Config.Frac) (m : Int) : (r.bankSample frac m).ferr = r.ferr := by
  simp only [Regs.bankSample]
@[simp] theorem Regs.bankSample_feff (r : Regs) (frac : Config.Frac) (m : Int) : (r.bankSample frac m).feff = r.feff := by
  simp only [Regs.bankSample]
@[simp] theorem Regs.bankSample_dqD (r : Regs) (frac : Config.Frac) (m : Int) : (r.bankSample frac m).dqD = r.dqD := by
  simp only [Regs.bankSample]
@[simp] theorem Regs.bankSample_dqQ (r : Regs) (frac : Config.Frac) (m : Int) : (r.bankSample frac m).dqQ = r.dqQ := by
  simp only [Regs.bankSample]
@[simp] theorem Regs.bankSample_dqnD (r : Regs) (frac : Config.Frac) (m : Int) : (r.bankSample frac m).dqnD = r.dqnD := by
  simp only [Regs.bankSample]
@[simp] theorem Regs.bankSample_dqnQ (r : Regs) (frac : Config.Frac) (m : Int) : (r.bankSample frac m).dqnQ = r.dqnQ := by
  simp only [Regs.bankSample]
@[simp] theorem Regs.bankSample_reload (r : Regs) (frac : Config.Frac) (m : Int) : (r.bankSample frac m).reload = r.reload := by
  simp only [Regs.bankSample]
@[simp] theorem Regs.bankSample_carry (r : Regs) (frac : Config.Frac) (m : Int) : (r.bankSample frac m).carry = r.carry := by
  simp only [Regs.bankSample]

@[simp] theorem Regs.pllPlain_cmd (r : Regs) : r.pllPlain.cmd = r.cmd := by
  simp only [Regs.pllPlain]
@[simp] theorem Regs.pllPlain_status (r : Regs) : r.pllPlain.status = r.status := by
  simp only [Regs.pllPlain]
@[simp] theorem Regs.pllPlain_ctrl (r : Regs) : r.pllPlain.ctrl = r.ctrl := by
  simp only [Regs.pllPlain]
@[simp] theorem Regs.pllPlain_inp (r : Regs) : r.pllPlain.inp = r.inp := by
  simp only [Regs.pllPlain]
@[simp] theorem Regs.pllPlain_out (r : Regs) : r.pllPlain.out = r.out := by
  simp only [Regs.pllPlain]
@[simp] theorem Regs.pllPlain_fref (r : Regs) : r.pllPlain.fref = r.fref := by
  simp only [Regs.pllPlain]
@[simp] theorem Regs.pllPlain_fmin (r : Regs) : r.pllPlain.fmin = r.fmin := by
  simp only [Regs.pllPlain]
@[simp] theorem Regs.pllPlain_nomticks (r : Regs) : r.pllPlain.nomticks = r.nomticks := by
  simp only [Regs.pllPlain]
@[simp] theorem Regs.pllPlain_lpfk (r : Regs) : r.pllPlain.lpfk = r.lpfk := by
  simp only [Regs.pllPlain]
@[simp] theorem Regs.pllPlain_pi (r : Regs) : r.pllPlain.pi = r.pi := by
  simp only [Regs.pllPlain]
@[simp] theorem Regs.pllPlain_term (r : Regs) : r.pllPlain.term = r.term := by
  simp only [Regs.pllPlain]
@[simp] theorem Regs.pllPlain_acc (r : Regs) : r.pllPlain.acc = r.acc := by
  simp only [Regs.pllPlain]
@[simp] theorem Regs.pllPlain_err (r : Regs) : r.pllPlain.err = r.err := by
  simp only [Regs.pllPlain]
@[simp] theorem Regs.pllPlain_dposBar (r : Regs) : r.pllPlain.dposBar = r.dposBar := by
  simp only [Regs.pllPlain]
@[simp] theorem Regs.pllPlain_qposBar (r : Regs) : r.pllPlain.qposBar = r.qposBar := by
  simp only [Regs.pllPlain]
@[simp] theorem Regs.pllPlain_dnegBar (r : Regs) : r.pllPlain.dnegBar = r.dnegBar := by
  simp only [Regs.pllPlain]
@[simp] theorem Regs.pllPlain_qnegBar (r : Regs) : r.pllPlain.qnegBar = r.qnegBar := by
  simp only [Regs.pllPlain]
@[simp] theorem Regs.pllPlain_theta (r : Regs) : r.pllPlain.theta = r.theta := by
  simp only [Regs.pllPlain]
@[simp] theorem Regs.pllPlain_sin (r : Regs) : r.pllPlain.sin = r.sin := by
  simp only [Regs.pllPlain]
@[simp] theorem Regs.pllPlain_cos (r : Regs) : r.pllPlain.cos = r.cos := by
  simp only [Regs.pllPlain]
@[simp] theorem Regs.pllPlain_ferr (r : Regs) : r.pllPlain.ferr = r.ferr := by
  simp only [Regs.pllPlain]
@[simp] theorem Regs.pllPlain_feff (r : Regs) : r.pllPlain.feff = r.feff := by
  simp only [Regs.pllPlain]
@[simp] theorem Regs.pllPlain_dqD (r : Regs) : r.pllPlain.dqD = u32 r.dqPos.d := by
  simp only [Regs.pllPlain]
@[simp] theorem Regs.pllPlain_dqQ (r : Regs) : r.pllPlain.dqQ = u32 r.dqPos.q := by
  simp only [Regs.pllPlain]
@[simp] theorem Regs.pllPlain_dqnD (r : Regs) : r.pllPlain.dqnD = r.dqnD := by
  simp only [Regs.pllPlain]
@[simp] theorem Regs.pllPlain_dqnQ (r : Regs) : r.pllPlain.dqnQ = r.dqnQ := by
  simp only [Regs.pllPlain]
@[simp] theorem Regs.pllPlain_reload (r : Regs) : r.pllPlain.reload = r.reload := by
  simp only [Regs.pllPlain]
@[simp] theorem Regs.pllPlain_carry (r : Regs) : r.pllPlain.carry = r.carry := by
  simp only [Regs.pllPlain]

@[simp] theorem Regs.pllDecouple_cmd (r : Regs) : r.pllDecouple.cmd = r.cmd := by
  simp only [Regs.pllDecouple]
@[simp] theorem Regs.pllDecouple_status (r : Regs) : r.pllDecouple.status = r.status := by
  simp only [Regs.pllDecouple]
@[simp] theorem Regs.pllDecouple_ctrl (r : Regs) : r.pllDecouple.ctrl = r.ctrl := by
  simp only [Regs.pllDecouple]
@[simp] theorem Regs.pllDecouple_inp (r : Regs) : r.pllDecouple.inp = r.inp := by
  simp only [Regs.pllDecouple]
@[simp] theorem Regs.pllDecouple_out (r : Regs) : r.pllDecouple.out = r.out := by
  simp only [Regs.pllDecouple]
@[simp] theorem Regs.pllDecouple_fref (r : Regs) : r.pllDecouple.fref = r.fref := by
  simp only [Regs.pllDecouple]
@[simp] theorem Regs.pllDecouple_fmin (r : Regs) : r.pllDecouple.fmin = r.fmin := by
  simp only [Regs.pllDecouple]
@[simp] theorem Regs.pllDecouple_nomticks (r : Regs) : r.pllDecouple.nomticks = r.nomticks := by
  simp only [Regs.pllDecouple]
@[simp] theorem Regs.pllDecouple_lpfk (r : Regs) : r.pllDecouple.lpfk = r.lpfk := by
  simp only [Regs.pllDecouple]
@[simp] theorem Regs.pllDecouple_pi (r : Regs) : r.pllDecouple.pi = r.pi := by
  simp only [Regs.pllDecouple]
@[simp] theorem Regs.pllDecouple_term (r : Regs) : r.pllDecouple.term = r.term := by
  simp only [Regs.pllDecouple]
@[simp] theorem Regs.pllDecouple_acc (r : Regs) : r.pllDecouple.acc = r.acc := by
  simp only [Regs.pllDecouple]
@[simp] theorem Regs.pllDecouple_err (r : Regs) : r.pllDecouple.err = r.err := by
  simp only [Regs.pllDecouple]
@[simp] theorem Regs.pllDecouple_dposBar (r : Regs) : r.pllDecouple.dposBar = u32 (lpf (uns r.lpfk) (s32 r.dposBar) r.dqPosHat.d) := by
  simp only [Regs.pllDecouple]
@[simp] theorem Regs.pllDecouple_qposBar (r : Regs) : r.pllDecouple.qposBar = u32 (lpf (uns r.lpfk) (s32 r.qposBar) r.dqPosHat.q) := by
  simp only [Regs.pllDecouple]
@[simp] theorem Regs.pllDecouple_dnegBar (r : Regs) : r.pllDecouple.dnegBar = u32 (lpf (uns r.lpfk) (s32 r.dnegBar) r.dqNegHat.d) := by
  simp only [Regs.pllDecouple]
@[simp] theorem Regs.pllDecouple_qnegBar (r : Regs) : r.pllDecouple.qnegBar = u32 (lpf (uns r.lpfk) (s32 r.qnegBar) r.dqNegHat.q) := by
  simp only [Regs.pllDecouple]
@[simp] theorem Regs.pllDecouple_theta (r : Regs) : r.pllDecouple.theta = r.theta := by
  simp only [Regs.pllDecouple]
@[simp] theorem Regs.pllDecouple_sin (r : Regs) : r.pllDecouple.sin = r.sin := by
  simp only [Regs.pllDecouple]
@[simp] theorem Regs.pllDecouple_cos (r : Regs) : r.pllDecouple.cos = r.cos := by
  simp only [Regs.pllDecouple]
@[simp] theorem Regs.pllDecouple_ferr (r : Regs) : r.pllDecouple.ferr = r.ferr := by
  simp only [Regs.pllDecouple]
@[simp] theorem Regs.pllDecouple_feff (r : Regs) : r.pllDecouple.feff = r.feff := by
  simp only [Regs.pllDecouple]
@[simp] theorem Regs.pllDecouple_dqD (r : Regs) : r.pllDecouple.dqD = u32 r.dqPosHat.d := by
  simp only [Regs.pllDecouple]
@[simp] theorem Regs.pllDecouple_dqQ (r : Regs) : r.pllDecouple.dqQ = u32 r.dqPosHat.q := by
  simp only [Regs.pllDecouple]
@[simp] theorem Regs.pllDecouple_dqnD (r : Regs) : r.pllDecouple.dqnD = u32 r.dqNegHat.d := by
  simp only [Regs.pllDecouple]
@[simp] theorem Regs.pllDecouple_dqnQ (r : Regs) : r.pllDecouple.dqnQ = u32 r.dqNegHat.q := by
  simp only [Regs.pllDecouple]
@[simp] theorem Regs.pllDecouple_reload (r : Regs) : r.pllDecouple.reload = r.reload := by
  simp only [Regs.pllDecouple]
@[simp] theorem Regs.pllDecouple_carry (r : Regs) : r.pllDecouple.carry = r.carry := by
  simp only [Regs.pllDecouple]

@[simp] theorem Regs.pllPhase_cmd (r : Regs) (frac : Config.Frac) : (r.pllPhase frac).cmd = r.cmd := by
  simp only [Regs.pllPhase, Regs.piStep]
@[simp] theorem Regs.pllPhase_status (r : Regs) (frac : Config.Frac) : (r.pllPhase frac).status = r.status := by
  simp only [Regs.pllPhase, Regs.piStep]
@[simp] theorem Regs.pllPhase_ctrl (r : Regs) (frac : Config.Frac) : (r.pllPhase frac).ctrl = r.ctrl := by
  simp only [Regs.pllPhase, Regs.piStep]
@[simp] theorem Regs.pllPhase_inp (r : Regs) (frac : Config.Frac) : (r.pllPhase frac).inp = r.inp := by
  simp only [Regs.pllPhase, Regs.piStep]
@[simp] theorem Regs.pllPhase_out (r : Regs) (frac : Config.Frac) : (r.pllPhase frac).out = r.out := by
  simp only [Regs.pllPhase, Regs.piStep]
@[simp] theorem Regs.pllPhase_fref (r : Regs) (frac : Config.Frac) : (r.pllPhase frac).fref = r.fref := by
  simp only [Regs.pllPhase, Regs.piStep]
@[simp] theorem Regs.pllPhase_fmin (r : Regs) (frac : Config.Frac) : (r.pllPhase frac).fmin = r.fmin := by
  simp only [Regs.pllPhase, Regs.piStep]
@[simp] theorem Regs.pllPhase_nomticks (r : Regs) (frac : Config.Frac) : (r.pllPhase frac).nomticks = r.nomticks := by
  simp only [Regs.pllPhase, Regs.piStep]
@[simp] theorem Regs.pllPhase_lpfk (r : Regs) (frac : Config.Frac) : (r.pllPhase frac).lpfk = r.lpfk := by
  simp only [Regs.pllPhase, Regs.piStep]
@[simp] theorem Regs.pllPhase_pi (r : Regs) (frac : Config.Frac) : (r.pllPhase frac).pi = r.pi.set 0 (piUpdate frac (r.pi.get 0) (s32 r.dqQ)).regs := by
  simp only [Regs.pllPhase, Regs.piStep]
@[simp] theorem Regs.pllPhase_term (r : Regs) (frac : Config.Frac) : (r.pllPhase frac).term = r.term := by
  simp only [Regs.pllPhase, Regs.piStep]
@[simp] theorem Regs.pllPhase_acc (r : Regs) (frac : Config.Frac) : (r.pllPhase frac).acc = r.acc := by
  simp only [Regs.pllPhase, Regs.piStep]
@[simp] theorem Regs.pllPhase_err (r : Regs) (frac : Config.Frac) : (r.pllPhase frac).err = r.err := by
  simp only [Regs.pllPhase, Regs.piStep]
@[simp] theorem Regs.pllPhase_dposBar (r : Regs) (frac : Config.Frac) : (r.pllPhase frac).dposBar = r.dposBar := by
  simp only [Regs.pllPhase, Regs.piStep]
@[simp] theorem Regs.pllPhase_qposBar (r : Regs) (frac : Config.Frac) : (r.pllPhase frac).qposBar = r.qposBar := by
  simp only [Regs.pllPhase, Regs.piStep]
@[simp] theorem Regs.pllPhase_dnegBar (r : Regs) (frac : Config.Frac) : (r.pllPhase frac).dnegBar = r.dnegBar := by
  simp only [Regs.pllPhase, Regs.piStep]
@[simp] theorem Regs.pllPhase_qnegBar (r : Regs) (frac : Config.Frac) : (r.pllPhase frac).qnegBar = r.qnegBar := by
  simp only [Regs.pllPhase, Regs.piStep]
@[simp] theorem Regs.pllPhase_theta (r : Regs) (frac : Config.Frac) : (r.pllPhase frac).theta = u32 (wrap32 (s32 r.theta + uns r.fref + r.piOutput frac 0 (s32 r.dqQ))) := by
  simp only [Regs.pllPhase, Regs.piStep]
@[simp] theorem Regs.pllPhase_sin (r : Regs) (frac : Config.Frac) : (r.pllPhase frac).sin = r.sin := by
  simp only [Regs.pllPhase, Regs.piStep]
@[simp] theorem Regs.pllPhase_cos (r : Regs) (frac : Config.Frac) : (r.pllPhase frac).cos = r.cos := by
  simp only [Regs.pllPhase, Regs.piStep]
@[simp] theorem Regs.pllPhase_ferr (r : Regs) (frac : Config.Frac) : (r.pllPhase frac).ferr = u32 (r.piOutput frac 0 (s32 r.dqQ)) := by
  simp only [Regs.pllPhase, Regs.piStep]
@[simp] theorem Regs.pllPhase_feff (r : Regs) (frac : Config.Frac) : (r.pllPhase frac).feff = r.feff := by
  simp only [Regs.pllPhase, Regs.piStep]
@[simp] theorem Regs.pllPhase_dqD (r : Regs) (frac : Config.Frac) : (r.pllPhase frac).dqD = r.dqD := by
  simp only [Regs.pllPhase, Regs.piStep]
@[simp] theorem Regs.pllPhase_dqQ (r : Regs) (frac : Config.Frac) : (r.pllPhase frac).dqQ = r.dqQ := by
  simp only [Regs.pllPhase, Regs.piStep]
@[simp] theorem Regs.pllPhase_dqnD (r : Regs) (frac : Config.Frac) : (r.pllPhase frac).dqnD = r.dqnD := by
  simp only [Regs.pllPhase, Regs.piStep]
@[simp] theorem Regs.pllPhase_dqnQ (r : Regs) (frac : Config.Frac) : (r.pllPhase frac).dqnQ = r.dqnQ := by
  simp only [Regs.pllPhase, Regs.piStep]
@[simp] theorem Regs.pllPhase_reload (r : Regs) (frac : Config.Frac) : (r.pllPhase frac).reload = r.reload := by
  simp only [Regs.pllPhase, Regs.piStep]
@[simp] theorem Regs.pllPhase_carry (r : Regs) (frac : Config.Frac) : (r.pllPhase frac).carry = r.carry := by
  simp only [Regs.pllPhase, Regs.piStep]

@[simp] theorem Regs.pllUnit_cmd (r : Regs) : r.pllUnit.cmd = r.cmd := by
  simp only [Regs.pllUnit]
@[simp] theorem Regs.pllUnit_status (r : Regs) : r.pllUnit.status = r.status := by
  simp only [Regs.pllUnit]
@[simp] theorem Regs.pllUnit_ctrl (r : Regs) : r.pllUnit.ctrl = r.ctrl := by
  simp only [Regs.pllUnit]
@[simp] theorem Regs.pllUnit_inp (r : Regs) : r.pllUnit.inp = r.inp := by
  simp only [Regs.pllUnit]
@[simp] theorem Regs.pllUnit_out (r : Regs) : r.pllUnit.out = r.out := by
  simp only [Regs.pllUnit]
@[simp] theorem Regs.pllUnit_fref (r : Regs) : r.pllUnit.fref = r.fref := by
  simp only [Regs.pllUnit]
@[simp] theorem Regs.pllUnit_fmin (r : Regs) : r.pllUnit.fmin = r.fmin := by
  simp only [Regs.pllUnit]
@[simp] theorem Regs.pllUnit_nomticks (r : Regs) : r.pllUnit.nomticks = r.nomticks := by
  simp only [Regs.pllUnit]
@[simp] theorem Regs.pllUnit_lpfk (r : Regs) : r.pllUnit.lpfk = r.lpfk := by
  simp only [Regs.pllUnit]
@[simp] theorem Regs.pllUnit_pi (r : Regs) : r.pllUnit.pi = r.pi := by
  simp only [Regs.pllUnit]
@[simp] theorem Regs.pllUnit_term (r : Regs) : r.pllUnit.term = r.term := by
  simp only [Regs.pllUnit]
@[simp] theorem Regs.pllUnit_acc (r : Regs) : r.pllUnit.acc = r.acc := by
  simp only [Regs.pllUnit]
@[simp] theorem Regs.pllUnit_err (r : Regs) : r.pllUnit.err = r.err := by
  simp only [Regs.pllUnit]
@[simp] theorem Regs.pllUnit_dposBar (r : Regs) : r.pllUnit.dposBar = r.dposBar := by
  simp only [Regs.pllUnit]
@[simp] theorem Regs.pllUnit_qposBar (r : Regs) : r.pllUnit.qposBar = r.qposBar := by
  simp only [Regs.pllUnit]
@[simp] theorem Regs.pllUnit_dnegBar (r : Regs) : r.pllUnit.dnegBar = r.dnegBar := by
  simp only [Regs.pllUnit]
@[simp] theorem Regs.pllUnit_qnegBar (r : Regs) : r.pllUnit.qnegBar = r.qnegBar := by
  simp only [Regs.pllUnit]
@[simp] theorem Regs.pllUnit_theta (r : Regs) : r.pllUnit.theta = r.theta := by
  simp only [Regs.pllUnit]
@[simp] theorem Regs.pllUnit_sin (r : Regs) : r.pllUnit.sin = u32 (uvec (s32 r.theta)).sin := by
  simp only [Regs.pllUnit]
@[simp] theorem Regs.pllUnit_cos (r : Regs) : r.pllUnit.cos = u32 (uvec (s32 r.theta)).cos := by
  simp only [Regs.pllUnit]
@[simp] theorem Regs.pllUnit_ferr (r : Regs) : r.pllUnit.ferr = r.ferr := by
  simp only [Regs.pllUnit]
@[simp] theorem Regs.pllUnit_feff (r : Regs) : r.pllUnit.feff = r.feff := by
  simp only [Regs.pllUnit]
@[simp] theorem Regs.pllUnit_dqD (r : Regs) : r.pllUnit.dqD = r.dqD := by
  simp only [Regs.pllUnit]
@[simp] theorem Regs.pllUnit_dqQ (r : Regs) : r.pllUnit.dqQ = r.dqQ := by
  simp only [Regs.pllUnit]
@[simp] theorem Regs.pllUnit_dqnD (r : Regs) : r.pllUnit.dqnD = r.dqnD := by
  simp only [Regs.pllUnit]
@[simp] theorem Regs.pllUnit_dqnQ (r : Regs) : r.pllUnit.dqnQ = r.dqnQ := by
  simp only [Regs.pllUnit]
@[simp] theorem Regs.pllUnit_reload (r : Regs) : r.pllUnit.reload = r.reload := by
  simp only [Regs.pllUnit]
@[simp] theorem Regs.pllUnit_carry (r : Regs) : r.pllUnit.carry = r.carry := by
  simp only [Regs.pllUnit]

@[simp] theorem Regs.pllClock_cmd (r : Regs) (frac : Config.Frac) : (r.pllClock frac).cmd = r.cmd := by
  simp only [Regs.pllClock, Regs.piStep]
@[simp] theorem Regs.pllClock_status (r : Regs) (frac : Config.Frac) : (r.pllClock frac).status = r.status := by
  simp only [Regs.pllClock, Regs.piStep]
@[simp] theorem Regs.pllClock_ctrl (r : Regs) (frac : Config.Frac) : (r.pllClock frac).ctrl = r.ctrl := by
  simp only [Regs.pllClock, Regs.piStep]
@[simp] theorem Regs.pllClock_inp (r : Regs) (frac : Config.Frac) : (r.pllClock frac).inp = r.inp := by
  simp only [Regs.pllClock, Regs.piStep]
@[simp] theorem Regs.pllClock_out (r : Regs) (frac : Config.Frac) : (r.pllClock frac).out = r.out := by
  simp only [Regs.pllClock, Regs.piStep]
@[simp] theorem Regs.pllClock_fref (r : Regs) (frac : Config.Frac) : (r.pllClock frac).fref = r.fref := by
  simp only [Regs.pllClock, Regs.piStep]
@[simp] theorem Regs.pllClock_fmin (r : Regs) (frac : Config.Frac) : (r.pllClock frac).fmin = r.fmin := by
  simp only [Regs.pllClock, Regs.piStep]
@[simp] theorem Regs.pllClock_nomticks (r : Regs) (frac : Config.Frac) : (r.pllClock frac).nomticks = r.nomticks := by
  simp only [Regs.pllClock, Regs.piStep]
@[simp] theorem Regs.pllClock_lpfk (r : Regs) (frac : Config.Frac) : (r.pllClock frac).lpfk = r.lpfk := by
  simp only [Regs.pllClock, Regs.piStep]
@[simp] theorem Regs.pllClock_pi (r : Regs) (frac : Config.Frac) : (r.pllClock frac).pi = r.pi.set 1 (piUpdate frac (r.pi.get 1) (s32 r.ferr)).regs := by
  simp only [Regs.pllClock, Regs.piStep]
@[simp] theorem Regs.pllClock_term (r : Regs) (frac : Config.Frac) : (r.pllClock frac).term = r.term := by
  simp only [Regs.pllClock, Regs.piStep]
@[simp] theorem Regs.pllClock_acc (r : Regs) (frac : Config.Frac) : (r.pllClock frac).acc = r.acc := by
  simp only [Regs.pllClock, Regs.piStep]
@[simp] theorem Regs.pllClock_err (r : Regs) (frac : Config.Frac) : (r.pllClock frac).err = r.err := by
  simp only [Regs.pllClock, Regs.piStep]
@[simp] theorem Regs.pllClock_dposBar (r : Regs) (frac : Config.Frac) : (r.pllClock frac).dposBar = r.dposBar := by
  simp only [Regs.pllClock, Regs.piStep]
@[simp] theorem Regs.pllClock_qposBar (r : Regs) (frac : Config.Frac) : (r.pllClock frac).qposBar = r.qposBar := by
  simp only [Regs.pllClock, Regs.piStep]
@[simp] theorem Regs.pllClock_dnegBar (r : Regs) (frac : Config.Frac) : (r.pllClock frac).dnegBar = r.dnegBar := by
  simp only [Regs.pllClock, Regs.piStep]
@[simp] theorem Regs.pllClock_qnegBar (r : Regs) (frac : Config.Frac) : (r.pllClock frac).qnegBar = r.qnegBar := by
  simp only [Regs.pllClock, Regs.piStep]
@[simp] theorem Regs.pllClock_theta (r : Regs) (frac : Config.Frac) : (r.pllClock frac).theta = r.theta := by
  simp only [Regs.pllClock, Regs.piStep]
@[simp] theorem Regs.pllClock_sin (r : Regs) (frac : Config.Frac) : (r.pllClock frac).sin = r.sin := by
  simp only [Regs.pllClock, Regs.piStep]
@[simp] theorem Regs.pllClock_cos (r : Regs) (frac : Config.Frac) : (r.pllClock frac).cos = r.cos := by
  simp only [Regs.pllClock, Regs.piStep]
@[simp] theorem Regs.pllClock_ferr (r : Regs) (frac : Config.Frac) : (r.pllClock frac).ferr = r.ferr := by
  simp only [Regs.pllClock, Regs.piStep]
@[simp] theorem Regs.pllClock_feff (r : Regs) (frac : Config.Frac) : (r.pllClock frac).feff = u32 (sadd (uns r.fref) (r.piOutput frac 1 (s32 r.ferr))) := by
  simp only [Regs.pllClock, Regs.piStep]
@[simp] theorem Regs.pllClock_dqD (r : Regs) (frac : Config.Frac) : (r.pllClock frac).dqD = r.dqD := by
  simp only [Regs.pllClock, Regs.piStep]
@[simp] theorem Regs.pllClock_dqQ (r : Regs) (frac : Config.Frac) : (r.pllClock frac).dqQ = r.dqQ := by
  simp only [Regs.pllClock, Regs.piStep]
@[simp] theorem Regs.pllClock_dqnD (r : Regs) (frac : Config.Frac) : (r.pllClock frac).dqnD = r.dqnD := by
  simp only [Regs.pllClock, Regs.piStep]
@[simp] theorem Regs.pllClock_dqnQ (r : Regs) (frac : Config.Frac) : (r.pllClock frac).dqnQ = r.dqnQ := by
  simp only [Regs.pllClock, Regs.piStep]
@[simp] theorem Regs.pllClock_reload (r : Regs) (frac : Config.Frac) : (r.pllClock frac).reload = r.reload := by
  simp only [Regs.pllClock, Regs.piStep]
@[simp] theorem Regs.pllClock_carry (r : Regs) (frac : Config.Frac) : (r.pllClock frac).carry = r.carry := by
  simp only [Regs.pllClock, Regs.piStep]

@[simp] theorem Regs.pllResults_cmd (r : Regs) : r.pllResults.cmd = r.cmd := by
  simp only [Regs.pllResults, Regs.result6]
@[simp] theorem Regs.pllResults_status (r : Regs) : r.pllResults.status = r.status := by
  simp only [Regs.pllResults, Regs.result6]
@[simp] theorem Regs.pllResults_ctrl (r : Regs) : r.pllResults.ctrl = r.ctrl := by
  simp only [Regs.pllResults, Regs.result6]
@[simp] theorem Regs.pllResults_inp (r : Regs) : r.pllResults.inp = r.inp := by
  simp only [Regs.pllResults, Regs.result6]
@[simp] theorem Regs.pllResults_out (r : Regs) : r.pllResults.out = ⟨u32 (s32 r.theta), u32 (s32 r.feff), u32 (s32 r.sin), u32 (s32 r.cos), u32 (s32 r.reload), u32 (s32 r.ferr)⟩ := by
  simp only [Regs.pllResults, Regs.result6]
@[simp] theorem Regs.pllResults_fref (r : Regs) : r.pllResults.fref = r.fref := by
  simp only [Regs.pllResults, Regs.result6]
@[simp] theorem Regs.pllResults_fmin (r : Regs) : r.pllResults.fmin = r.fmin := by
  simp only [Regs.pllResults, Regs.result6]
@[simp] theorem Regs.pllResults_nomticks (r : Regs) : r.pllResults.nomticks = r.nomticks := by
  simp only [Regs.pllResults, Regs.result6]
@[simp] theorem Regs.pllResults_lpfk (r : Regs) : r.pllResults.lpfk = r.lpfk := by
  simp only [Regs.pllResults, Regs.result6]
@[simp] theorem Regs.pllResults_pi (r : Regs) : r.pllResults.pi = r.pi := by
  simp only [Regs.pllResults, Regs.result6]
@[simp] theorem Regs.pllResults_term (r : Regs) : r.pllResults.term = r.term := by
  simp only [Regs.pllResults, Regs.result6]
@[simp] theorem Regs.pllResults_acc (r : Regs) : r.pllResults.acc = r.acc := by
  simp only [Regs.pllResults, Regs.result6]
@[simp] theorem Regs.pllResults_err (r : Regs) : r.pllResults.err = r.err := by
  simp only [Regs.pllResults, Regs.result6]
@[simp] theorem Regs.pllResults_dposBar (r : Regs) : r.pllResults.dposBar = r.dposBar := by
  simp only [Regs.pllResults, Regs.result6]
@[simp] theorem Regs.pllResults_qposBar (r : Regs) : r.pllResults.qposBar = r.qposBar := by
  simp only [Regs.pllResults, Regs.result6]
@[simp] theorem Regs.pllResults_dnegBar (r : Regs) : r.pllResults.dnegBar = r.dnegBar := by
  simp only [Regs.pllResults, Regs.result6]
@[simp] theorem Regs.pllResults_qnegBar (r : Regs) : r.pllResults.qnegBar = r.qnegBar := by
  simp only [Regs.pllResults, Regs.result6]
@[simp] theorem Regs.pllResults_theta (r : Regs) : r.pllResults.theta = r.theta := by
  simp only [Regs.pllResults, Regs.result6]
@[simp] theorem Regs.pllResults_sin (r : Regs) : r.pllResults.sin = r.sin := by
  simp only [Regs.pllResults, Regs.result6]
@[simp] theorem Regs.pllResults_cos (r : Regs) : r.pllResults.cos = r.cos := by
  simp only [Regs.pllResults, Regs.result6]
@[simp] theorem Regs.pllResults_ferr (r : Regs) : r.pllResults.ferr = r.ferr := by
  simp only [Regs.pllResults, Regs.result6]
@[simp] theorem Regs.pllResults_feff (r : Regs) : r.pllResults.feff = r.feff := by
  simp only [Regs.pllResults, Regs.result6]
@[simp] theorem Regs.pllResults_dqD (r : Regs) : r.pllResults.dqD = r.dqD := by
  simp only [Regs.pllResults, Regs.result6]
@[simp] theorem Regs.pllResults_dqQ (r : Regs) : r.pllResults.dqQ = r.dqQ := by
  simp only [Regs.pllResults, Regs.result6]
@[simp] theorem Regs.pllResults_dqnD (r : Regs) : r.pllResults.dqnD = r.dqnD := by
  simp only [Regs.pllResults, Regs.result6]
@[simp] theorem Regs.pllResults_dqnQ (r : Regs) : r.pllResults.dqnQ = r.dqnQ := by
  simp only [Regs.pllResults, Regs.result6]
@[simp] theorem Regs.pllResults_reload (r : Regs) : r.pllResults.reload = r.reload := by
  simp only [Regs.pllResults, Regs.result6]
@[simp] theorem Regs.pllResults_carry (r : Regs) : r.pllResults.carry = r.carry := by
  simp only [Regs.pllResults, Regs.result6]

@[simp] theorem Regs.pllReload_cmd (r : Regs) : r.pllReload.cmd = r.cmd := by
  unfold Regs.pllReload; dsimp only; split <;> rfl
@[simp] theorem Regs.pllReload_status (r : Regs) : r.pllReload.status = r.status := by
  unfold Regs.pllReload; dsimp only; split <;> rfl
@[simp] theorem Regs.pllReload_ctrl (r : Regs) : r.pllReload.ctrl = r.ctrl := by
  unfold Regs.pllReload; dsimp only; split <;> rfl
@[simp] theorem Regs.pllReload_inp (r : Regs) : r.pllReload.inp = r.inp := by
  unfold Regs.pllReload; dsimp only; split <;> rfl
@[simp] theorem Regs.pllReload_out (r : Regs) : r.pllReload.out = r.out := by
  unfold Regs.pllReload; dsimp only; split <;> rfl
@[simp] theorem Regs.pllReload_fref (r : Regs) : r.pllReload.fref = r.fref := by
  unfold Regs.pllReload; dsimp only; split <;> rfl
@[simp] theorem Regs.pllReload_fmin (r : Regs) : r.pllReload.fmin = r.fmin := by
  unfold Regs.pllReload; dsimp only; split <;> rfl
@[simp] theorem Regs.pllReload_nomticks (r : Regs) : r.pllReload.nomticks = r.nomticks := by
  unfold Regs.pllReload; dsimp only; split <;> rfl
@[simp] theorem Regs.pllReload_lpfk (r : Regs) : r.pllReload.lpfk = r.lpfk := by
  unfold Regs.pllReload; dsimp only; split <;> rfl
@[simp] theorem Regs.pllReload_pi (r : Regs) : r.pllReload.pi = r.pi := by
  unfold Regs.pllReload; dsimp only; split <;> rfl
@[simp] theorem Regs.pllReload_term (r : Regs) : r.pllReload.term = r.term := by
  unfold Regs.pllReload; dsimp only; split <;> rfl
@[simp] theorem Regs.pllReload_acc (r : Regs) : r.pllReload.acc = r.acc := by
  unfold Regs.pllReload; dsimp only; split <;> rfl
@[simp] theorem Regs.pllReload_err (r : Regs) : r.pllReload.err = r.err := by
  unfold Regs.pllReload; dsimp only; split <;> rfl
@[simp] theorem Regs.pllReload_dposBar (r : Regs) : r.pllReload.dposBar = r.dposBar := by
  unfold Regs.pllReload; dsimp only; split <;> rfl
@[simp] theorem Regs.pllReload_qposBar (r : Regs) : r.pllReload.qposBar = r.qposBar := by
  unfold Regs.pllReload; dsimp only; split <;> rfl
@[simp] theorem Regs.pllReload_dnegBar (r : Regs) : r.pllReload.dnegBar = r.dnegBar := by
  unfold Regs.pllReload; dsimp only; split <;> rfl
@[simp] theorem Regs.pllReload_qnegBar (r : Regs) : r.pllReload.qnegBar = r.qnegBar := by
  unfold Regs.pllReload; dsimp only; split <;> rfl
@[simp] theorem Regs.pllReload_theta (r : Regs) : r.pllReload.theta = r.theta := by
  unfold Regs.pllReload; dsimp only; split <;> rfl
@[simp] theorem Regs.pllReload_sin (r : Regs) : r.pllReload.sin = r.sin := by
  unfold Regs.pllReload; dsimp only; split <;> rfl
@[simp] theorem Regs.pllReload_cos (r : Regs) : r.pllReload.cos = r.cos := by
  unfold Regs.pllReload; dsimp only; split <;> rfl
@[simp] theorem Regs.pllReload_ferr (r : Regs) : r.pllReload.ferr = r.ferr := by
  unfold Regs.pllReload; dsimp only; split <;> rfl
@[simp] theorem Regs.pllReload_feff (r : Regs) : r.pllReload.feff = r.feff := by
  unfold Regs.pllReload; dsimp only; split <;> rfl
@[simp] theorem Regs.pllReload_dqD (r : Regs) : r.pllReload.dqD = r.dqD := by
  unfold Regs.pllReload; dsimp only; split <;> rfl
@[simp] theorem Regs.pllReload_dqQ (r : Regs) : r.pllReload.dqQ = r.dqQ := by
  unfold Regs.pllReload; dsimp only; split <;> rfl
@[simp] theorem Regs.pllReload_dqnD (r : Regs) : r.pllReload.dqnD = r.dqnD := by
  unfold Regs.pllReload; dsimp only; split <;> rfl
@[simp] theorem Regs.pllReload_dqnQ (r : Regs) : r.pllReload.dqnQ = r.dqnQ := by
  unfold Regs.pllReload; dsimp only; split <;> rfl

@[simp] theorem Regs.pllDq_cmd (r : Regs) : r.pllDq.cmd = r.cmd := by
  unfold Regs.pllDq; split <;> simp only [Regs.pllDecouple, Regs.pllPlain]
@[simp] theorem Regs.pllDq_status (r : Regs) : r.pllDq.status = r.status := by
  unfold Regs.pllDq; split <;> simp only [Regs.pllDecouple, Regs.pllPlain]
@[simp] theorem Regs.pllDq_ctrl (r : Regs) : r.pllDq.ctrl = r.ctrl := by
  unfold Regs.pllDq; split <;> simp only [Regs.pllDecouple, Regs.pllPlain]
@[simp] theorem Regs.pllDq_inp (r : Regs) : r.pllDq.inp = r.inp := by
  unfold Regs.pllDq; split <;> simp only [Regs.pllDecouple, Regs.pllPlain]
@[simp] theorem Regs.pllDq_out (r : Regs) : r.pllDq.out = r.out := by
  unfold Regs.pllDq; split <;> simp only [Regs.pllDecouple, Regs.pllPlain]
@[simp] theorem Regs.pllDq_fref (r : Regs) : r.pllDq.fref = r.fref := by
  unfold Regs.pllDq; split <;> simp only [Regs.pllDecouple, Regs.pllPlain]
@[simp] theorem Regs.pllDq_fmin (r : Regs) : r.pllDq.fmin = r.fmin := by
  unfold Regs.pllDq; split <;> simp only [Regs.pllDecouple, Regs.pllPlain]
@[simp] theorem Regs.pllDq_nomticks (r : Regs) : r.pllDq.nomticks = r.nomticks := by
  unfold Regs.pllDq; split <;> simp only [Regs.pllDecouple, Regs.pllPlain]
@[simp] theorem Regs.pllDq_lpfk (r : Regs) : r.pllDq.lpfk = r.lpfk := by
  unfold Regs.pllDq; split <;> simp only [Regs.pllDecouple, Regs.pllPlain]
@[simp] theorem Regs.pllDq_pi (r : Regs) : r.pllDq.pi = r.pi := by
  unfold Regs.pllDq; split <;> simp only [Regs.pllDecouple, Regs.pllPlain]
@[simp] theorem Regs.pllDq_term (r : Regs) : r.pllDq.term = r.term := by
  unfold Regs.pllDq; split <;> simp only [Regs.pllDecouple, Regs.pllPlain]
@[simp] theorem Regs.pllDq_acc (r : Regs) : r.pllDq.acc = r.acc := by
  unfold Regs.pllDq; split <;> simp only [Regs.pllDecouple, Regs.pllPlain]
@[simp] theorem Regs.pllDq_err (r : Regs) : r.pllDq.err = r.err := by
  unfold Regs.pllDq; split <;> simp only [Regs.pllDecouple, Regs.pllPlain]
@[simp] theorem Regs.pllDq_theta (r : Regs) : r.pllDq.theta = r.theta := by
  unfold Regs.pllDq; split <;> simp only [Regs.pllDecouple, Regs.pllPlain]
@[simp] theorem Regs.pllDq_sin (r : Regs) : r.pllDq.sin = r.sin := by
  unfold Regs.pllDq; split <;> simp only [Regs.pllDecouple, Regs.pllPlain]
@[simp] theorem Regs.pllDq_cos (r : Regs) : r.pllDq.cos = r.cos := by
  unfold Regs.pllDq; split <;> simp only [Regs.pllDecouple, Regs.pllPlain]
@[simp] theorem Regs.pllDq_ferr (r : Regs) : r.pllDq.ferr = r.ferr := by
  unfold Regs.pllDq; split <;> simp only [Regs.pllDecouple, Regs.pllPlain]
@[simp] theorem Regs.pllDq_feff (r : Regs) : r.pllDq.feff = r.feff := by
  unfold Regs.pllDq; split <;> simp only [Regs.pllDecouple, Regs.pllPlain]
@[simp] theorem Regs.pllDq_reload (r : Regs) : r.pllDq.reload = r.reload := by
  unfold Regs.pllDq; split <;> simp only [Regs.pllDecouple, Regs.pllPlain]
@[simp] theorem Regs.pllDq_carry (r : Regs) : r.pllDq.carry = r.carry := by
  unfold Regs.pllDq; split <;> simp only [Regs.pllDecouple, Regs.pllPlain]

end Sys2Proof.Machine
end

