-- ==== Sys2Proof/Laws/Step.lean ====
section
/-! SUPPORT. What a command, a bus access and a step can answer, said once. -/

namespace Sys2Proof.Machine

/-- The register file after a command, for every command. -/
def Regs.afterCommand (frac : Config.Frac) (i : Instr) (r : Regs) : Regs :=
  match i with
  | .nop => r
  | .uvec => r.uvecCmd
  | .rot => r.rotCmd
  | .sh120p => r.sh120pCmd
  | .sh120n => r.sh120nCmd
  | .nharm => r.nharmCmd
  | .clarke => r.clarkeCmd
  | .clarke0 => r.clarke0Cmd
  | .iclarke => r.iclarkeCmd
  | .iclarke0 => r.iclarke0Cmd
  | .park => r.parkCmd
  | .ipark => r.iparkCmd
  | .abc2dq => r.abc2dqCmd
  | .l2seq => r.l2seqCmd
  | .seq2l => r.seq2lCmd
  | .bankstep => r.bankstepCmd frac
  | .pllinit => r.pllinitCmd
  | .pllstep => r.pllstepCmd frac
  | .piupd sel => r.piupdCmd frac sel
  | .srst => r.afterReset

/-- Every command answers a next state; it works on the register file only (46_system.md R297, R298). -/
theorem exec_eq (i : Instr) (s : State) : exec i s = .next { s with regs := s.regs.afterCommand s.frac i } := by
  cases i <;> rfl

theorem exec_next_iff (i : Instr) (s t : State) :
    exec i s = .next t ↔ t = { s with regs := s.regs.afterCommand s.frac i } := by
  rw [exec_eq]
  exact ⟨fun h => by cases h; rfl, fun h => by rw [h]⟩

/-- What a word written to CMD does to the register file (30_encoding.md R105). -/
def Regs.afterWord (frac : Config.Frac) (w : Word) (r : Regs) : Regs :=
  match decode w with
  | .ok i => Regs.afterCommand frac i { r with cmd := w }
  | .error _ => { r with cmd := w }.raise .illegalCommand

theorem executeWord_eq (w : Word) (s : State) : executeWord w s = .next { s with regs := s.regs.afterWord s.frac w } := by
  unfold executeWord Regs.afterWord
  cases decode w with
  | ok i => exact exec_eq i _
  | error e => rfl

/-- What a bus write inside the block does to the register file (20_memory.md R71). -/
def Regs.afterWrite (frac : Config.Frac) (addr size : Nat) (v : Word) (r : Regs) : Regs :=
  match accessReg addr size with
  | some .cmd => r.afterWord frac v
  | some .status => r.clearFaults v
  | some x => r.hostWrite x v
  | none => r.raise .badAddress

theorem busWrite_eq (addr size : Nat) (v : Word) (s : State) :
    busWrite addr size v s = .next { s with regs := s.regs.afterWrite s.frac addr size v } := by
  unfold busWrite Regs.afterWrite
  cases accessReg addr size with
  | none => rfl
  | some x => cases x <;> first | exact executeWord_eq v s | rfl

/-- What a bus read inside the block does: the value it returns, and the fault it may raise (20_memory.md R71, R77). -/
theorem busRead_eq (addr size : Nat) (s : State) :
    busRead addr size s = match accessReg addr size with
      | some x => .next { s with reads := s.reads ++ [s.regs.get x] }
      | none => .next { s with regs := s.regs.raise .badAddress, reads := s.reads ++ [0] } := by
  unfold busRead
  cases accessReg addr size <;> rfl

/-- Everything a step can do: nothing, with no move waiting; or the oldest move taken, being a read that returns a register, a bad
read, a write, or the reset input. -/
theorem step_cases {s t : State} (h : step s = .next t) :
    (s.pending = [] ∧ t = s) ∨ ∃ rest,
      (∃ addr size x, s.pending = .read addr size :: rest ∧ addr < 0x200 ∧ accessReg addr size = some x ∧
        t = { s with pending := rest, reads := s.reads ++ [s.regs.get x] }) ∨
      (∃ addr size, s.pending = .read addr size :: rest ∧ addr < 0x200 ∧ accessReg addr size = none ∧
        t = { s with regs := s.regs.raise .badAddress, pending := rest, reads := s.reads ++ [0] }) ∨
      (∃ addr size v, s.pending = .write addr size v :: rest ∧ addr < 0x200 ∧
        t = { s with regs := s.regs.afterWrite s.frac addr size v, pending := rest }) ∨
      (s.pending = .reset :: rest ∧ t = { s with regs := Regs.reset, pending := rest }) := by
  unfold step nextMove at h
  split at h
  · rename_i hp
    cases h
    exact .inl ⟨hp, rfl⟩
  · rename_i m rest hp
    refine .inr ⟨rest, ?_⟩
    cases m with
    | read addr size =>
      simp only [hostMove] at h
      split at h
      · rename_i hb
        rw [busRead_eq] at h
        split at h
        · rename_i x hx
          cases h
          exact .inl ⟨addr, size, x, hp, by simpa [inBlock] using hb, hx, rfl⟩
        · rename_i hx
          cases h
          exact .inr (.inl ⟨addr, size, hp, by simpa [inBlock] using hb, hx, rfl⟩)
      · cases h
    | write addr size v =>
      simp only [hostMove] at h
      split at h
      · rename_i hb
        rw [busWrite_eq] at h
        cases h
        exact .inr (.inr (.inl ⟨addr, size, v, hp, by simpa [inBlock] using hb, rfl⟩))
      · cases h
    | reset =>
      simp only [hostMove, commit] at h
      cases h
      exact .inr (.inr (.inr ⟨hp, rfl⟩))

/-- No step changes FRAC: it says which build the machine is (00_scope.md R7; notes/assumptions/6.md). -/
theorem step_frac {s t : State} (h : step s = .next t) : t.frac = s.frac := by
  obtain ⟨_, rfl⟩ | ⟨_, ⟨_, _, _, _, _, _, rfl⟩ | ⟨_, _, _, _, _, rfl⟩ | ⟨_, _, _, _, _, rfl⟩ | ⟨_, rfl⟩⟩ := step_cases h <;> rfl

end Sys2Proof.Machine
end

