-- ==== Sys2Proof/Laws/Commands.lean ====
section
/-! SUPPORT. The parts a command is made of: for each, which registers it may change, and what it can give. -/

namespace Sys2Proof.Machine

/-- New results leave every other register alone (30_encoding.md R104). -/
theorem Regs.out_frame (r : Regs) (o : Six) (xs : List Reg) (h : ∀ i : Fin 6, .out i ∉ xs → o.get i = r.out.get i) {x : Reg}
    (hx : x ∉ xs) : Regs.get { r with out := o } x = r.get x := by
  cases x <;> first | rfl | exact h _ hx

theorem Regs.result1_frame (r : Regs) (a : Int) {x : Reg} (hx : x ∉ [Reg.out 0]) : (r.result1 a).get x = r.get x :=
  r.out_frame _ _ (fun i hi => by fin_cases i <;> first | rfl | simp at hi) hx

theorem Regs.result2_frame (r : Regs) (a b : Int) {x : Reg} (hx : x ∉ [Reg.out 0, .out 1]) :
    (r.result2 a b).get x = r.get x :=
  r.out_frame _ _ (fun i hi => by fin_cases i <;> first | rfl | simp at hi) hx

theorem Regs.result3_frame (r : Regs) (a b c : Int) {x : Reg} (hx : x ∉ [Reg.out 0, .out 1, .out 2]) :
    (r.result3 a b c).get x = r.get x :=
  r.out_frame _ _ (fun i hi => by fin_cases i <;> first | rfl | simp at hi) hx

theorem Regs.result4_frame (r : Regs) (a b c d : Int) {x : Reg} (hx : x ∉ [Reg.out 0, .out 1, .out 2, .out 3]) :
    (r.result4 a b c d).get x = r.get x :=
  r.out_frame _ _ (fun i hi => by fin_cases i <;> first | rfl | simp at hi) hx

theorem Regs.result6_frame (r : Regs) (a b c d e f : Int) {x : Reg}
    (hx : x ∉ [Reg.out 0, .out 1, .out 2, .out 3, .out 4, .out 5]) : (r.result6 a b c d e f).get x = r.get x :=
  r.out_frame _ _ (fun i hi => by fin_cases i <;> first | rfl | simp at hi) hx

/-- One sample of the bank writes the terms' alpha and beta, ACC and ERR (44_bank.md R236 to R238). -/
theorem Regs.bankSample_frame (r : Regs) (frac : Config.Frac) (m : Int) {x : Reg}
    (hx : x ∉ [Reg.acc, .err, .term 0 .alpha, .term 0 .beta, .term 1 .alpha, .term 1 .beta, .term 2 .alpha, .term 2 .beta,
      .term 3 .alpha, .term 3 .beta]) : (r.bankSample frac m).get x = r.get x := by
  simp only [Regs.bankSample]
  cases x with
  | term i f => fin_cases i <;> cases f <;> first | rfl | (exfalso; revert hx; decide)
  | _ => first | rfl | (exfalso; revert hx; decide)

/-- One PI update writes one integral (43_pi.md R220). -/
theorem Regs.piStep_frame (r : Regs) (frac : Config.Frac) (i : Fin 4) (e : Int) {x : Reg} (hx : x ∉ [Reg.pi i .integ]) :
    (r.piStep frac i e).get x = r.get x := by
  simp only [Regs.piStep]
  cases x with
  | pi j f => fin_cases i <;> fin_cases j <;> cases f <;> first | rfl | (exfalso; revert hx; decide)
  | _ => rfl

/-- The integral after an update reads back as the clamped one (43_pi.md R220). -/
theorem s32_piUpdate_integ (frac : Config.Frac) (p : PiRegs) (e : Int) :
    s32 (piUpdate frac p e).regs.integ = piIntegral frac p e :=
  s32_u32_of_isWord (isWord_clamp (isWord_sat32 _) (uns_nonneg _))

theorem isWord_piOutput (r : Regs) (frac : Config.Frac) (i : Fin 4) (e : Int) : IsWord (r.piOutput frac i e) := isWord_sat32 _

theorem Regs.pllDecouple_frame (r : Regs) {x : Reg}
    (hx : x ∉ [Reg.dqD, .dqQ, .dqnD, .dqnQ, .dposBar, .qposBar, .dnegBar, .qnegBar]) :
    r.pllDecouple.get x = r.get x := by
  simp only [Regs.pllDecouple]
  cases x <;> first | rfl | (exfalso; revert hx; decide)

theorem Regs.pllPlain_frame (r : Regs) {x : Reg} (hx : x ∉ [Reg.dqD, .dqQ]) : r.pllPlain.get x = r.get x := by
  simp only [Regs.pllPlain]
  cases x <;> first | rfl | (exfalso; revert hx; decide)

/-- The bank part of PLLSTEP leaves every register that the later parts read, the terms apart. -/
theorem Regs.pllBank_kept (r : Regs) (frac : Config.Frac) :
    let b := r.pllBank frac
    b.ctrl = r.ctrl ∧ b.sin = r.sin ∧ b.cos = r.cos ∧ b.theta = r.theta ∧ b.pi = r.pi ∧ b.fref = r.fref ∧ b.fmin = r.fmin ∧
      b.nomticks = r.nomticks ∧ b.carry = r.carry ∧ b.lpfk = r.lpfk ∧ b.dqnD = r.dqnD ∧ b.dqnQ = r.dqnQ := by
  simp only [Regs.pllBank, Regs.bankSample, and_self]

theorem Regs.pllBank_kept_bars (r : Regs) (frac : Config.Frac) :
    let b := r.pllBank frac
    b.dposBar = r.dposBar ∧ b.qposBar = r.qposBar ∧ b.dnegBar = r.dnegBar ∧ b.qnegBar = r.qnegBar := by
  simp only [Regs.pllBank, Regs.bankSample, and_self]

/-- The Dq part of PLLSTEP leaves every register that the loops read (45_pll.md R255 to R261). -/
theorem Regs.pllDq_kept (r : Regs) :
    r.pllDq.term = r.term ∧ r.pllDq.acc = r.acc ∧ r.pllDq.err = r.err ∧ r.pllDq.theta = r.theta ∧ r.pllDq.pi = r.pi ∧
      r.pllDq.fref = r.fref ∧ r.pllDq.fmin = r.fmin ∧ r.pllDq.nomticks = r.nomticks ∧ r.pllDq.carry = r.carry := by
  unfold Regs.pllDq
  split <;> exact ⟨rfl, rfl, rfl, rfl, rfl, rfl, rfl, rfl, rfl⟩

theorem Regs.pllPhase_frame (r : Regs) (frac : Config.Frac) {x : Reg} (hx : x ∉ [Reg.pi 0 .integ, .ferr, .theta]) :
    (r.pllPhase frac).get x = r.get x := by
  rw [← r.piStep_frame frac 0 (s32 r.dqQ) (x := x) (by simp at hx ⊢; tauto)]
  simp only [Regs.pllPhase]
  generalize r.piStep frac 0 (s32 r.dqQ) = z
  cases x <;> first | rfl | (exfalso; revert hx; decide)

theorem Regs.pllUnit_frame (r : Regs) {x : Reg} (hx : x ∉ [Reg.sin, .cos]) : r.pllUnit.get x = r.get x := by
  simp only [Regs.pllUnit]
  cases x <;> first | rfl | (exfalso; revert hx; decide)

theorem Regs.pllClock_frame (r : Regs) (frac : Config.Frac) {x : Reg} (hx : x ∉ [Reg.pi 1 .integ, .feff]) :
    (r.pllClock frac).get x = r.get x := by
  rw [← r.piStep_frame frac 1 (s32 r.ferr) (x := x) (by simp at hx ⊢; tauto)]
  simp only [Regs.pllClock]
  generalize r.piStep frac 1 (s32 r.ferr) = z
  cases x <;> first | rfl | (exfalso; revert hx; decide)

theorem Regs.pllReload_frame (r : Regs) {x : Reg} (hx : x ∉ [Reg.reload, .carry]) : r.pllReload.get x = r.get x := by
  unfold Regs.pllReload
  dsimp only
  split <;> (cases x <;> first | rfl | (exfalso; revert hx; decide))

/-- The divisor of a tick is at least 1 (45_pll.md R266). -/
theorem Regs.reloadDivisor_pos (r : Regs) : 1 ≤ r.reloadDivisor := by
  unfold Regs.reloadDivisor
  omega

theorem Regs.reloadQuotient_nonneg (r : Regs) : 0 ≤ r.reloadQuotient := by
  have h := r.reloadDivisor_pos
  have h1 := uns_nonneg r.nomticks
  have h2 := uns_nonneg r.fref
  exact Int.ediv_nonneg (by positivity) (by omega)

/-- The quotient the model divides is the one a tick's registers name (45_pll.md R266). -/
theorem Regs.reloadQuotient_eq (r : Regs) :
    r.reloadQuotient =
      ((r.nomticks.toNat * r.fref.toNat * 65536 / (max (max r.feff.toInt (r.fmin.toNat : Int)) 1).toNat : Nat) : Int) := by
  unfold Regs.reloadQuotient Regs.reloadDivisor uns s32 Config.tickFrac
  generalize hd : max (max r.feff.toInt (r.fmin.toNat : Int)) 1 = d
  obtain ⟨n, rfl⟩ := Int.eq_ofNat_of_zero_le (show 0 ≤ d by omega)
  push_cast
  rfl

end Sys2Proof.Machine
end

