-- ==== Sys2Proof/Laws/PerInstr.lean ====
section
/-! SUPPORT. Statements made for all instructions, one lemma for each. -/

namespace Sys2Proof.Laws

/-- The encoding of a command keeps to format C: the ZERO field is 0, OPC and SEL are the command's own, and SEL is 0 but for
PIUPD (30_encoding.md R101). -/
def FormatC.Statement (i : Instr) : Prop :=
  zeroField (encode i) = 0 ∧ opcField (encode i) = i.opc ∧ selField (encode i) = i.selBits ∧
    (i.opc ≠ 0x20 → i.selBits = 0) ∧ i.wf = true

theorem FormatC.nop : FormatC.Statement .nop := by unfold FormatC.Statement; decide

theorem FormatC.uvec : FormatC.Statement .uvec := by unfold FormatC.Statement; decide

theorem FormatC.rot : FormatC.Statement .rot := by unfold FormatC.Statement; decide

theorem FormatC.sh120p : FormatC.Statement .sh120p := by unfold FormatC.Statement; decide

theorem FormatC.sh120n : FormatC.Statement .sh120n := by unfold FormatC.Statement; decide

theorem FormatC.nharm : FormatC.Statement .nharm := by unfold FormatC.Statement; decide

theorem FormatC.clarke : FormatC.Statement .clarke := by unfold FormatC.Statement; decide

theorem FormatC.clarke0 : FormatC.Statement .clarke0 := by unfold FormatC.Statement; decide

theorem FormatC.iclarke : FormatC.Statement .iclarke := by unfold FormatC.Statement; decide

theorem FormatC.iclarke0 : FormatC.Statement .iclarke0 := by unfold FormatC.Statement; decide

theorem FormatC.park : FormatC.Statement .park := by unfold FormatC.Statement; decide

theorem FormatC.ipark : FormatC.Statement .ipark := by unfold FormatC.Statement; decide

theorem FormatC.abc2dq : FormatC.Statement .abc2dq := by unfold FormatC.Statement; decide

theorem FormatC.l2seq : FormatC.Statement .l2seq := by unfold FormatC.Statement; decide

theorem FormatC.seq2l : FormatC.Statement .seq2l := by unfold FormatC.Statement; decide

theorem FormatC.bankstep : FormatC.Statement .bankstep := by unfold FormatC.Statement; decide

theorem FormatC.pllinit : FormatC.Statement .pllinit := by unfold FormatC.Statement; decide

theorem FormatC.pllstep : FormatC.Statement .pllstep := by unfold FormatC.Statement; decide

theorem FormatC.srst : FormatC.Statement .srst := by unfold FormatC.Statement; decide

theorem FormatC.piupd (sel : Fin 4) : FormatC.Statement (.piupd sel) := by
  unfold FormatC.Statement; revert sel; decide

end Sys2Proof.Laws
end

