-- ==== Sys2Proof/Tests/Slice0.lean ====
section
/-! SUPPORT. The model's own tests: what WellFormed refuses, words written out from the spec's encoding, one command at a time on the
vectors of 95_test_vectors.md and of the commands' own rules, and for every statement with hypotheses a state that meets them. -/

namespace Sys2Proof.Tests

open Sys2Proof.Machine

/-! WellFormed: each check refuses an ill-formed term. -/

theorem test_wf_refuses_read_outside_block : (HostMove.read 0x200 4).wf = false := by decide
theorem test_wf_refuses_write_outside_block : (HostMove.write 0x200 4 1).wf = false := by decide
theorem test_wf_takes_last_offset : (HostMove.read 0x1FF 1).wf = true := by decide
theorem test_wf_takes_last_instance : (Instr.piupd 3).wf = true := by decide

/-! Decode: each word of 30_encoding.md R109, bit by bit: ZERO(22) SEL(2) OPC(8). -/

theorem test_decode_nop : decode 0b0000000000000000000000_00_00000000 = .ok .nop := by decide
theorem test_decode_uvec : decode 0b0000000000000000000000_00_00000001 = .ok .uvec := by decide
theorem test_decode_rot : decode 0b0000000000000000000000_00_00000010 = .ok .rot := by decide
theorem test_decode_sh120p : decode 0b0000000000000000000000_00_00000011 = .ok .sh120p := by decide
theorem test_decode_sh120n : decode 0b0000000000000000000000_00_00000100 = .ok .sh120n := by decide
theorem test_decode_nharm : decode 0b0000000000000000000000_00_00000101 = .ok .nharm := by decide
theorem test_decode_clarke : decode 0b0000000000000000000000_00_00010000 = .ok .clarke := by decide
theorem test_decode_clarke0 : decode 0b0000000000000000000000_00_00010001 = .ok .clarke0 := by decide
theorem test_decode_iclarke : decode 0b0000000000000000000000_00_00010010 = .ok .iclarke := by decide
theorem test_decode_iclarke0 : decode 0b0000000000000000000000_00_00010011 = .ok .iclarke0 := by decide
theorem test_decode_park : decode 0b0000000000000000000000_00_00010100 = .ok .park := by decide
theorem test_decode_ipark : decode 0b0000000000000000000000_00_00010101 = .ok .ipark := by decide
theorem test_decode_abc2dq : decode 0b0000000000000000000000_00_00010110 = .ok .abc2dq := by decide
theorem test_decode_l2seq : decode 0b0000000000000000000000_00_00011000 = .ok .l2seq := by decide
theorem test_decode_seq2l : decode 0b0000000000000000000000_00_00011001 = .ok .seq2l := by decide
theorem test_decode_piupd_0 : decode 0b0000000000000000000000_00_00100000 = .ok (.piupd 0) := by decide
theorem test_decode_piupd_1 : decode 0b0000000000000000000000_01_00100000 = .ok (.piupd 1) := by decide
theorem test_decode_piupd_2 : decode 0b0000000000000000000000_10_00100000 = .ok (.piupd 2) := by decide
theorem test_decode_piupd_3 : decode 0b0000000000000000000000_11_00100000 = .ok (.piupd 3) := by decide
theorem test_decode_bankstep : decode 0b0000000000000000000000_00_00110000 = .ok .bankstep := by decide
theorem test_decode_pllinit : decode 0b0000000000000000000000_00_01000000 = .ok .pllinit := by decide
theorem test_decode_pllstep : decode 0b0000000000000000000000_00_01000001 = .ok .pllstep := by decide
theorem test_decode_srst : decode 0b0000000000000000000000_00_01111111 = .ok .srst := by decide

/-- R106: the gaps of the table. -/
theorem test_decode_reserved_opcodes :
    [(0x06 : Word), 0x0F, 0x17, 0x1A, 0x1F, 0x21, 0x2F, 0x31, 0x3F, 0x42, 0x7E, 0x80, 0xFF].map decode =
      List.replicate 13 (.error .reservedOpcode) := by decide

/-- R101: SEL must be 0 but for PIUPD, and the top 22 bits must be 0. -/
theorem test_decode_sel_and_zero_fields :
    decode 0x100 = .error .selNotZero ∧ decode 0x341 = .error .selNotZero ∧ decode 0x400 = .error .reservedBits ∧
      decode 0x80000020 = .error .reservedBits := by decide

/-- More than 32 bits are no command, and a short one has zeros above. -/
theorem test_table_word : decodeTableWord 32 0x220 = some (.piupd 2) ∧ decodeTableWord 8 0x220 = some (.piupd 0) ∧
    decodeTableWord 40 0x100000001 = none := by decide

/-! One command at a time. -/

/-- The reset state with operands. -/
def withOperands (a b c d e f : Word) : State :=
  { State.reset with regs := { Regs.reset with inp := ⟨a, b, c, d, e, f⟩, out := ⟨9, 9, 9, 9, 9, 9⟩ } }

/-- The registers after a command. -/
def after (i : Instr) (s : State) : Regs :=
  match exec i s with
  | .next t => t.regs
  | .fault _ => s.regs
  | .refused _ => s.regs

/-- 95_test_vectors.md 2.2. -/
theorem test_uvec : (after .uvec (withOperands 0x12345678 0 0 0 0 0)).out = ⟨0x374E95F6, 0x736F3F8B, 9, 9, 9, 9⟩ := by decide
/-- 95_test_vectors.md 2.2: floors on both sides of 0 differ. -/
theorem test_uvec_minus_one : (after .uvec (withOperands 0xFFFFFFFF 0 0 0 0 0)).out = ⟨0xFFFFFFFB, 0x7FFFFFFF, 9, 9, 9, 9⟩ := by
  decide

/-- 95_test_vectors.md 2.3. -/
theorem test_rot :
    (after .rot (withOperands 0x075BCD15 0xC521974F 0x736F3F8B 0x374E95F6 0 0)).out =
      ⟨0x201294FF, 0xCE16FA86, 9, 9, 9, 9⟩ := by decide
/-- 95_test_vectors.md 2.3: x' saturates. -/
theorem test_rot_saturates :
    (after .rot (withOperands 0x7FFFFFFF 0x7FFFFFFF 0x5A82799A 0xA57D8666 0 0)).out =
      ⟨0x7FFFFFFF, 0xFFFFFFFF, 9, 9, 9, 9⟩ := by decide

/-- 41_trig.md R174. -/
theorem test_sh120p :
    (after .sh120p (withOperands 0x374E95F6 0x736F3F8B 0 0 0 0)).out = ⟨0x4850D6B9, 0x9662AE52, 9, 9, 9, 9⟩ := by decide
/-- 41_trig.md R174: the sine saturates. -/
theorem test_sh120p_saturates :
    (after .sh120p (withOperands 0x80000000 0x7FFFFFFF 0 0 0 0)).out = ⟨0x7FFFFFFF, 0x2ED9EBA2, 9, 9, 9, 9⟩ := by decide

/-- 41_trig.md R175. -/
theorem test_sh120n :
    (after .sh120n (withOperands 0x374E95F6 0x736F3F8B 0 0 0 0)).out = ⟨0x80609351, 0xF62E1224, 9, 9, 9, 9⟩ := by decide
/-- 41_trig.md R175: the cosine saturates. -/
theorem test_sh120n_saturates :
    (after .sh120n (withOperands 0x80000000 0x7FFFFFFF 0 0 0 0)).out = ⟨0xD1261460, 0x80000000, 9, 9, 9, 9⟩ := by decide

/-- 41_trig.md R177. -/
theorem test_nharm :
    (after .nharm (withOperands 0x736F3F8B 0x374E95F6 0x7FFFFFFF 0 0x736F3F8B 0)).out =
      ⟨0x50348DBD, 0x63C158AB, 9, 9, 9, 9⟩ := by decide
/-- 41_trig.md R177: only the difference saturates. -/
theorem test_nharm_saturates :
    (after .nharm (withOperands 0x80000000 5 0x7FFFFFFF 0 0x7FFFFFFF 0)).out = ⟨0x80000000, 9, 9, 9, 9, 9⟩ := by decide

/-- 42_transforms.md R192: OUT2 is not written. -/
theorem test_clarke :
    (after .clarke (withOperands 0x80000000 0x7FFFFFFF 0x80000000 0 0 0)).out = ⟨0xAAAAAAAC, 0x49E69D15, 9, 9, 9, 9⟩ := by
  decide

/-- 42_transforms.md R193, the seed with the corrected beta (90_conflicts.md C1). -/
theorem test_clarke0_seed :
    (after .clarke0 (withOperands 0x0EF30000 0x17C80000 0xD9460000 0 0 0)).out =
      ⟨0x0EF2AAAB, 0x2416C24E, 0x00005555, 9, 9, 9⟩ := by decide
/-- 42_transforms.md R193. -/
theorem test_clarke0_floors :
    (after .clarke0 (withOperands 0xFFFFFFFF 0xFFFFFFFF 0xFFFFFFFF 0 0 0)).out = ⟨1, 0, 0xFFFFFFFE, 9, 9, 9⟩ := by decide

/-- 42_transforms.md R195: c saturates, IN2 is ignored. -/
theorem test_iclarke :
    (after .iclarke (withOperands 0x7FFFFFFF 0x7FFFFFFF 0x7FFFFFFF 0 0 0)).out =
      ⟨0x7FFFFFFF, 0x2ED9EBA1, 0x80000000, 9, 9, 9⟩ := by decide

/-- 42_transforms.md R196. -/
theorem test_iclarke0 :
    (after .iclarke0 (withOperands 0x0EF2AAAB 0x2416C24E 0x00005555 0 0 0)).out =
      ⟨0x0EF30000, 0x17C7FFFF, 0xD9460001, 9, 9, 9⟩ := by decide
/-- 42_transforms.md R196. -/
theorem test_iclarke0_all_min :
    (after .iclarke0 (withOperands 0x80000000 0x80000000 0x80000000 0 0 0)).out =
      ⟨0x80000000, 0x80000000, 0xFFFFFFFF, 9, 9, 9⟩ := by decide

/-- 95_test_vectors.md 2.7. -/
theorem test_park :
    (after .park (withOperands 0x0EF2B936 0x2416C260 0x374E95F6 0x736F3F8B 0 0)).out =
      ⟨0xE5E9A8B8, 0x1D12FFF9, 9, 9, 9, 9⟩ := by decide
/-- 42_transforms.md R198. -/
theorem test_park_all_min :
    (after .park (withOperands 0x80000000 0x80000000 0x80000000 0x80000000 0 0)).out = ⟨0, 0x7FFFFFFF, 9, 9, 9, 9⟩ := by decide

/-- 95_test_vectors.md 2.7. -/
theorem test_ipark :
    (after .ipark (withOperands 0xE5E9A8B8 0x1D12FFF9 0x374E95F6 0x736F3F8B 0 0)).out =
      ⟨0x0EF2B933, 0x2416C25E, 9, 9, 9, 9⟩ := by decide
/-- 42_transforms.md R200. -/
theorem test_ipark_saturates :
    (after .ipark (withOperands 0x80000000 0x7FFFFFFF 0x5A82799A 0x5A82799A 0 0)).out =
      ⟨0xFFFFFFFF, 0x7FFFFFFF, 9, 9, 9, 9⟩ := by decide

/-- 95_test_vectors.md 2.7: -5675584 is 0xFFA965C0. -/
theorem test_abc2dq :
    (after .abc2dq (withOperands 0 0xFFA965C0 5675584 0 0x7FFFFFFF 0)).out = ⟨6553598, 0xFFFFFFFF, 9, 9, 9, 9⟩ := by decide
/-- 42_transforms.md R202: the inner sum saturates before the scaling. -/
theorem test_abc2dq_saturates :
    (after .abc2dq (withOperands 0x7FFFFFFF 0x80000000 0x80000000 0x7FFFFFFF 0 0)).out = ⟨0x55555554, 0, 9, 9, 9, 9⟩ := by
  decide

/-- 42_transforms.md R205. -/
theorem test_l2seq :
    (after .l2seq (withOperands 0x10000 0x20000 0x30000 0x40000 0x50000 0x60000)).out =
      ⟨0xFFFF93CD, 0xFFFE6C32, 0xFFFE6C32, 0xFFFF93CD, 0x30000, 0x40000⟩ := by decide

/-- 95_test_vectors.md 1.4. -/
theorem test_seq2l :
    (after .seq2l (withOperands 0xFFFF93CD 0xFFFE6C32 0xFFFE6C32 0xFFFF93CD 0x30000 0x40000)).out =
      ⟨0x0000FFFF, 0x0001FFFF, 0x00030001, 0x00040001, 0x00050001, 0x00060001⟩ := by decide
/-- 42_transforms.md R207: B lags A by 120 degrees. -/
theorem test_seq2l_positive :
    (after .seq2l (withOperands 65536 0 0 0 0 0)).out =
      ⟨65536, 0, 0xFFFF8000, 0xFFFF224D, 0xFFFF8000, 56755⟩ := by decide

/-- A PI instance in place 2, with an error. -/
def withPi (p : PiRegs) (e : Word) : State :=
  { State.reset with regs := { Regs.reset with pi := ⟨PiRegs.zero, PiRegs.zero, p, PiRegs.zero⟩, inp := ⟨e, 0, 0, 0, 0, 0⟩ } }

/-- 95_test_vectors.md 1.5, update 4: the clamp acts, and the output is formed from the clamped integral. -/
theorem test_piupd_clamps :
    let r := after (.piupd 2) (withPi ⟨0x20000, 0x8000, 100000, 98304⟩ 0x10000)
    r.pi.x2.integ = 100000 ∧ r.out.x0 = 231072 := by decide
/-- 43_pi.md R222: the product saturates; MAXI = 0 keeps the integral at 0. -/
theorem test_piupd_saturates :
    let r := after (.piupd 2) (withPi ⟨0x80000000, 0, 0, 5⟩ 0x80000000)
    r.pi.x2.integ = 0 ∧ r.out.x0 = 0x7FFFFFFF := by decide

/-- 00_scope.md R7, 43_pi.md R222 by hand: the builds with FRAC 0 (3·5, 2·5 + 15) and 31 (the halves of Q31). -/
theorem test_piupd_other_frac :
    let r0 := after (.piupd 2) { (withPi ⟨2, 3, 100, 0⟩ 5) with frac := 0 }
    let r31 := after (.piupd 2) { (withPi ⟨0x40000000, 0x20000000, 100, 0⟩ 0xFFFFFFFB) with frac := 31 }
    r0.pi.x2.integ = 15 ∧ r0.out.x0 = 25 ∧ r31.pi.x2.integ = 0xFFFFFFFE ∧ r31.out.x0 = 0xFFFFFFFB := by decide

/-- 44_bank.md R239, the example. -/
theorem test_bankstep :
    let t (k : Word) : TermRegs := ⟨0, 0, 0, 0, k, 0⟩
    let r := after .bankstep
      { State.reset with regs := { Regs.reset with term := ⟨t 3277, t 655, t 655, t 655⟩, inp := ⟨6553600, 0, 0, 0, 0, 0⟩ } }
    r.out = ⟨327700, 0, 524200, 6553600, 0, 0⟩ ∧ r.term.x3.alpha = 65500 := by decide
/-- 44_bank.md R239, the corner case: the estimate and the error saturate. -/
theorem test_bankstep_saturates :
    let t : TermRegs := ⟨0x7FFFFFFF, 0, 0x7FFFFFFF, 0, 0x10000, 0⟩
    let r := after .bankstep
      { State.reset with regs := { Regs.reset with term := ⟨t, t, t, t⟩, inp := ⟨0x80000000, 0, 0, 0, 0, 0⟩ } }
    r.term.x1.alpha = 0xFFFFFFFE ∧ r.acc = 0xFFFFFFF8 ∧ r.err = 0x80000000 := by decide

/-- The configuration of 95_test_vectors.md 2.11. -/
def pllConfigured (dec : Word) : State :=
  let t (k : Word) : TermRegs := ⟨0, 0, 0, 0, k, 0⟩
  { State.reset with
    regs := { Regs.reset with
      fref := 0x0189374C, fmin := 0x00624DD3, nomticks := 17000, lpfk := 0x0147AE14, ctrl := dec
      pi := ⟨⟨136700, 1367, 0x08000000, 0⟩, ⟨0, 655, 0x04000000, 0⟩, PiRegs.zero, PiRegs.zero⟩
      term := ⟨t 3277, t 655, t 655, t 655⟩ } }

/-- 45_pll.md R251, the example. -/
theorem test_pllinit :
    let r := after .pllinit (pllConfigured 0)
    [r.term.x0.cosinc, r.term.x0.sininc, r.term.x1.cosinc, r.term.x1.sininc, r.term.x3.cosinc, r.term.x3.sininc] =
        [0x7FE8B7AA, 0x04D3082B, 0x7F2EA7C9, 0x0E7213FB, 0x7B91A022, 0x21634129] ∧
      r.feff = 0x0189374C ∧ r.reload = 17000 ∧ r.status = 0 := by decide +kernel
/-- 60_exceptions.md R312: a zero FMIN. -/
theorem test_pllinit_config_error :
    let s : State := { State.reset with regs := { Regs.reset with fref := 5, nomticks := 5, theta := 7 } }
    after .pllinit s = { s.regs with status := 2 } := by decide

/-- The state before tick 2 of the first trace of 95_test_vectors.md 2.11 (DEC = 0): tick 1 taken. -/
def beforeTick2 (dec : Word) (c1 : Word) : State :=
  { State.reset with
    regs := after .pllstep
      { State.reset with
        regs := { after .pllinit (pllConfigured dec) with inp := ⟨0, 0xFFA965C0, c1, 0, 0, 0⟩ } } }

/-- 95_test_vectors.md 2.11, DEC = 0, tick 2. -/
theorem test_pllstep :
    let r := after .pllstep ((beforeTick2 0 5675584).withSample 247006 0xFFA79D13 5545486)
    r.out = ⟨0x0312D428, 0x0189384F, 0x09A58D35, 0x7FA2CF16, 16999, 26000⟩ ∧ r.carry = 54338 ∧ r.dqD = 465 ∧
      r.dqQ = 12342 ∧ r.acc = 19755 := by decide +kernel
/-- 95_test_vectors.md 2.11, DEC = 1, tick 2: -5607 is 0xFFFFEA19, -57 is 0xFFFFFFC7. -/
theorem test_pllstep_decoupled :
    let r := after .pllstep ((beforeTick2 1 2837792).withSample 247006 0xFFA79D13 2772743)
    r.out = ⟨0x03173B8B, 0x01894393, 0x09B358DE, 0x7FA1C36A, 16998, 214968⟩ ∧ r.carry = 17726 ∧
      [r.dqD, r.dqQ, r.dqnD, r.dqnQ] = [2046, 101571, 0xFFFFEA19, 101436] ∧
      [r.dposBar, r.qposBar, r.dnegBar, r.qnegBar] = [20, 1482, 0xFFFFFFC7, 1481] := by decide +kernel

/-- 46_system.md R291. -/
theorem test_nop : exec .nop (withOperands 1 2 3 4 5 6) = .next (withOperands 1 2 3 4 5 6) := rfl
/-- 46_system.md R293. -/
theorem test_srst : after .srst (withOperands 1 2 3 4 5 6) = Regs.reset := by decide

/-! The sine table: 41_trig.md R161 and 95_test_vectors.md 2.1. -/

theorem test_sine_samples :
    [0, 1, 2, 36, 37, 64, 91, 92].map qt =
      [0, 26352928, 52701887, 918167572, 941921200, 1518500250, 1929888720, 1941302225] := by decide

/-- 41_trig.md R161, the transcription checks: the sum and the exclusive-or of the 129 entries. -/
theorem test_sine_table_checksums :
    quarterTable.length = 129 ∧ quarterTable.foldl (· + ·) 0 = 176064256231 ∧
      quarterTable.foldl (fun x v => x ^^^ u32 v) 0 = 0xC3F432AD := by decide +kernel

/-! The bus: one host move at a time. -/

/-- What one step of the machine leaves when the host makes one move. -/
def move (m : HostMove) : State := { State.reset with pending := [m] }

/-- 20_memory.md R71, 60_exceptions.md R313. -/
theorem test_narrow_write_of_cmd_runs_nothing :
    step (move (.write 0x000 1 0x7F)) =
      .next { State.reset with regs := { Regs.reset with status := 4 } } := rfl
/-- 10_state.md R31, R46: the bits above the mask are dropped. -/
theorem test_write_masks :
    step (move (.write 0x088 4 0x12345678)) =
      .next { State.reset with regs := { Regs.reset with nomticks := 0x5678 } } := rfl
/-- 10_state.md R27. -/
theorem test_status_clears :
    step { (move (.write 0x004 4 0xFFFFFFF9)) with regs := { Regs.reset with status := 7 } } =
      .next { State.reset with regs := { Regs.reset with status := 6 } } := rfl
/-- 10_state.md R45: COS after reset. -/
theorem test_read_cos :
    step (move (.read 0x1A8 4)) = .next { State.reset with reads := [0x7FFFFFFF] } := rfl
/-- 60_exceptions.md R311. -/
theorem test_illegal_word :
    step (move (.write 0x000 4 0x101)) =
      .next { State.reset with regs := { Regs.reset with cmd := 0x101, status := 1 } } := rfl
/-- The host's next write, placed by withFetchWord, is what the next step runs. -/
theorem test_fetch_word :
    step (State.reset.withFetchWord 32 0x41) =
      exec .pllstep { State.reset with regs := { Regs.reset with cmd := 0x41 } } := rfl
/-- 30_encoding.md R111: a sample and its tick are four writes. -/
theorem test_step_notation :
    stepSample 1 2 3 = [.write 0x010 4 1, .write 0x014 4 2, .write 0x018 4 3, .write 0x000 4 0x41] := by decide

/-! Witnesses: for each statement with hypotheses, a state that meets them, and for each clause a boundary value. -/

theorem witness_sat32_each_case :
    sat32 (-2 ^ 31 - 1) = -2 ^ 31 ∧ sat32 (2 ^ 31) = 2 ^ 31 - 1 ∧ sat32 (-2 ^ 31) = -2 ^ 31 ∧
      sat32 (2 ^ 31 - 1) = 2 ^ 31 - 1 := by decide

theorem witness_wrap32_meets_right_side :
    (-2 ^ 31 : Int) ≤ -2 ^ 31 ∧ (-2 ^ 31 : Int) ≤ 2 ^ 31 - 1 ∧ (2 ^ 32 : Int) ∣ -2 ^ 31 - 2 ^ 31 ∧ wrap32 (2 ^ 31) = -2 ^ 31 := by
  decide

theorem witness_q31_each_case :
    ¬((0x80000000 : Word) = 0x80000000 ∧ (0x7FFFFFFF : Word) = 0x80000000) ∧
      smul31 (0x80000000 : Word).toInt (0x80000000 : Word).toInt = 0x7FFFFFFF ∧ 0 < (1 : Word).toInt ∧ smul31 1 0x7FFFFFFF = 0 ∧
      (-2 ^ 31 < (0x80000001 : Word).toInt ∧ (0x80000001 : Word).toInt ≤ 0) ∧ smul31 0 0x7FFFFFFF = 0 ∧
      smul31 (-0x7FFFFFFF) 0x7FFFFFFF = -0x7FFFFFFF ∧ smul31 (0x80000000 : Word).toInt 0x7FFFFFFF = -0x7FFFFFFF := by decide

theorem witness_decode_sides : decode 0x00000320 = .ok (.piupd 3) ∧ (0x00000320 : Word) = encode (.piupd 3) := by decide

theorem witness_piupd_row : (0x00000320 : Word) &&& 0xFFFFFCFF = 0x20 ∧ decode 0x00000320 = .ok (.piupd 3) := by decide

theorem witness_command_write :
    (move (.write 0x000 4 0x220)).pending = .write 0x000 4 0x220 :: [] ∧ decode 0x220 = .ok (.piupd 2) := by decide

theorem witness_illegal_reserved_bits :
    (move (.write 0x000 4 0x400)).pending = .write 0x000 4 0x400 :: [] ∧ (0x400 : Word).toNat / 1024 ≠ 0 := by decide

theorem witness_illegal_opcode :
    (move (.write 0x000 4 0x06)).pending = .write 0x000 4 0x06 :: [] ∧
      (0x06 : Word).toNat % 256 ∉ [0x00, 0x01, 0x02, 0x03, 0x04, 0x05, 0x10, 0x11, 0x12, 0x13, 0x14, 0x15, 0x16, 0x18, 0x19,
        0x20, 0x30, 0x40, 0x41, 0x7F] := by decide

theorem witness_illegal_sel :
    (move (.write 0x000 4 0x100)).pending = .write 0x000 4 0x100 :: [] ∧ (0x100 : Word).toNat % 256 ≠ 0x20 ∧
      (0x100 : Word).toNat / 256 % 4 ≠ 0 := by decide

theorem witness_word_read : (move (.read Reg.carry.offset 4)).pending = .read Reg.carry.offset 4 :: [] := by decide

/-- 10_state.md R45: three rows of the map, by number. -/
theorem witness_register_map : accessReg 0x000 4 = some .cmd ∧ accessReg 0x1C8 4 = some .carry ∧ accessReg 0x1C8 2 = none ∧
    [(Reg.fref, 0x080, (0x7FFFFFFF : Word)), (.fmin, 0x084, 0x7FFFFFFF), (.term 3 .kbeta, 0x174, 0xFFFFFFFF)].all
      (Claims.registerMap.contains ·) := by decide

/-- For both statements about a host write to a plain register. -/
theorem witness_plain_write :
    (Reg.pi 3 .maxi, 0x0F8, (0x7FFFFFFF : Word)) ∈ Claims.registerMap ∧ Reg.pi 3 .maxi ≠ .cmd ∧ Reg.pi 3 .maxi ≠ .status ∧
      (move (.write 0x0F8 4 0xFFFFFFFF)).pending = .write 0x0F8 4 0xFFFFFFFF :: [] ∧ (Reg.pi 3 .maxi).offset = 0x0F8 := by decide

theorem witness_status_write : (move (.write 0x004 4 0x5)).pending = .write 0x004 4 0x5 :: [] := by decide

theorem witness_bad_access_size : (0x000 : Nat) < 0x200 ∧ (8 : Nat) ≠ 4 ∧
    (move (.write 0x000 8 0x41)).pending = .write 0x000 8 0x41 :: [] ∧ (move (.read 0x000 8)).pending = .read 0x000 8 :: [] := by
  decide

theorem witness_bad_access_alignment : (0x1FF : Nat) < 0x200 ∧ 0x1FF % 4 ≠ 0 ∧
    (move (.write 0x1FF 4 1)).pending = .write 0x1FF 4 1 :: [] ∧ (move (.read 0x1FF 4)).pending = .read 0x1FF 4 :: [] := by
  decide

theorem witness_bad_access_reserved : (0x1FC : Nat) < 0x200 ∧ reservedOffset 0x1FC = true ∧ reservedOffset 0x00C = true ∧
    (move (.write 0x1FC 4 1)).pending = .write 0x1FC 4 1 :: [] ∧ (move (.read 0x00C 4)).pending = .read 0x00C 4 :: [] := by
  decide

theorem witness_outside_access : 0x200 ≤ (0x200 : Nat) ∧ (move (.read 0x200 4)).pending = .read 0x200 4 :: [] ∧
    (move (.write 0x200 4 1)).pending = .write 0x200 4 1 :: [] := by decide

theorem witness_hardware_reset : (move .reset).pending = .reset :: [] := by decide

theorem witness_idle : State.reset.pending = [] := by decide

theorem witness_nop_word : (move (.write 0x000 4 0x00000000)).pending = .write 0x000 4 0x00000000 :: [] := by decide

theorem witness_config_kept :
    Instr.pllinit ≠ .srst ∧ exec .pllinit State.reset = .next { State.reset with regs := { Regs.reset with status := 2 } } ∧
      Reg.isConfig (.pi 0 .maxi) = true := ⟨by decide, rfl, by decide⟩

/-- 41_trig.md R162, the spot values, and an index of each quarter. -/
theorem witness_knots_each_clause :
    (128 : Nat) ≤ 128 ∧ ((128 : Nat) < 129 ∧ (256 : Nat) ≤ 256) ∧ ((256 : Nat) < 257 ∧ (511 : Nat) < 512) ∧
      [0, 1, 128, 129, 256, 257, 384, 511].map sinKnot =
        [0, 26352928, 2147483648, 2147321946, 0, -26352928, -2147483648, -26352928] ∧
      [0, 1, 128, 129, 256, 384, 511].map cosKnot =
        [2147483648, 2147321946, 0, -26352928, -2147483648, 0, 2147321946] := by decide

theorem witness_iclarke_zero_component : (withOperands 65536 5 0 0 0 0).regs.inp.x2 = 0 := by decide

theorem witness_integrals_clamped :
    let s := withPi ⟨0x20000, 0x8000, 100000, 0xFFFE7960⟩ 0x10000
    s.regs.PiBounded ∧ ∃ t, exec (.piupd 2) s = .next t := ⟨by decide, _, rfl⟩

theorem witness_config_error_each_register :
    (move (.write 0x000 4 0x40)).pending = .write 0x000 4 0x00000040 :: [] ∧ State.reset.regs.fref = 0 ∧
      State.reset.regs.fmin = 0 ∧ State.reset.regs.nomticks = 0 := by decide

theorem witness_no_other_fault : Instr.rot ≠ .pllinit ∧ Instr.rot ≠ .srst ∧ ∃ t, exec .rot State.reset = .next t :=
  ⟨by decide, by decide, _, rfl⟩

theorem witness_pllinit_both_paths :
    (State.reset.regs.fref = 0 ∨ State.reset.regs.fmin = 0 ∨ State.reset.regs.nomticks = 0) ∧
      ¬((pllConfigured 0).regs.fref = 0 ∨ (pllConfigured 0).regs.fmin = 0 ∨ (pllConfigured 0).regs.nomticks = 0) := by decide

theorem witness_plain_dq : (pllConfigured 0).regs.ctrl.getLsbD 0 = false := by decide

theorem witness_decoupling : (pllConfigured 1).regs.ctrl.getLsbD 0 = true := by decide

/-- A state whose next tick carries: 5·3/4 = 3.75 ticks on a full `CARRY`, so a reload of 4. -/
def almostCarrying : State :=
  { State.reset with regs := { Regs.reset with fref := 3, fmin := 4, nomticks := 5, carry := 65535 } }

theorem witness_carry_below_tick : almostCarrying.regs.CarryBelowTick := by decide

theorem witness_ticks :
    almostCarrying.regs.CarryBelowTick ∧ ∃ r q t, Ticks almostCarrying r q t ∧ q = 245760 ∧ r = 4 :=
  ⟨by decide, _, _, _, .tick 7 8 9 .start rfl (by decide +kernel), by decide +kernel, by decide +kernel⟩

theorem witness_masks : State.reset.regs.Masked ∧ ∃ t, step (move (.write 0x088 4 0xFFFFFFFF)) = .next t := by
  refine ⟨fun x => ?_, _, rfl⟩
  cases x with
  | inp i => revert i; decide
  | out i => revert i; decide
  | pi i f => cases f <;> revert i <;> decide
  | term j f => cases f <;> revert j <;> decide
  | _ => decide

theorem witness_coherent :
    let s := move (.write 0x000 4 0x41)
    s.regs.Coherent ∧ (∀ x ∈ [Reg.theta, .sin, .cos], ∀ v, s.pending.head? ≠ some (.write x.offset 4 v)) ∧
      ∃ t, step s = .next t := by
  refine ⟨by decide, fun x hx v h => ?_, _, rfl⟩
  simp only [move, List.head?, Option.some.injEq, HostMove.write.injEq] at h
  fin_cases hx <;> simp [Reg.offset] at h

theorem witness_noninterference :
    let s := State.reset
    let s' : State :=
      { s with
        regs := { Regs.reset with cmd := 1, status := 7, acc := 5, err := 6, out := ⟨1, 2, 3, 4, 5, 6⟩ }
        pending := [.reset] }
    s ≠ s' ∧ s.frac = s'.frac ∧ ∀ x : Reg, x.isOutput = false → s.regs.get x = s'.regs.get x := by
  refine ⟨by decide, rfl, fun x h => ?_⟩
  cases x <;> first | rfl | simp [Reg.isOutput] at h

theorem witness_in_block_run :
    ({ State.reset with pending := rd .cos ++ stepSample 1 2 3 ++ rda 0x1FC 8 ++ [.reset] } : State).InBlock := by decide

theorem witness_same_operands :
    Instr.uvec ∈ [Instr.uvec, .rot, .sh120p, .sh120n, .nharm, .clarke, .clarke0, .iclarke, .iclarke0, .park, .ipark, .abc2dq,
        .l2seq, .seq2l] ∧
      (withOperands 1 2 3 4 5 6).regs.inp =
        { (withOperands 1 2 3 4 5 6).regs with out := ⟨1, 2, 3, 4, 5, 6⟩, theta := 7 }.inp := by decide

end Sys2Proof.Tests
end

section
/-! PROOFS. Family 10_state.md: the register map, the host's writes to registers, the reset values, and the two invariants that a
step keeps, the masks (R46) and the unit vector of THETA (R38). -/

namespace Sys2Proof.Machine

/-! ### The register map -/

/-- The offset names the register (10_state.md R45). -/
theorem Reg.offset_injective : Function.Injective Reg.offset := fun x y h =>
  List.inj_on_of_nodup_map Reg.offsets_apart x.mem_all y.mem_all h

theorem regAt_eq_some_iff (a : Nat) (x : Reg) : regAt a = some x ↔ a = x.offset := by
  constructor
  · intro h
    have hx := List.find?_some h
    exact (by simpa using hx : x.offset = a).symm
  · rintro rfl
    have hsome : (regAt x.offset).isSome := List.find?_isSome.2 ⟨x, x.mem_all, by simp⟩
    obtain ⟨y, hy⟩ := Option.isSome_iff_exists.1 hsome
    have hoff : y.offset = x.offset := by simpa using List.find?_some hy
    rwa [Reg.offset_injective hoff] at hy

/-- Only a 4-byte access at its own offset reaches a register (20_memory.md R71, R74). -/
theorem accessReg_eq_some_iff (a n : Nat) (x : Reg) : accessReg a n = some x ↔ n = 4 ∧ a = x.offset := by
  unfold accessReg
  split
  next hn => simp [hn, regAt_eq_some_iff]
  next hn => simp [hn]

@[simp] theorem accessReg_offset (x : Reg) : accessReg x.offset 4 = some x :=
  (accessReg_eq_some_iff _ _ _).2 ⟨rfl, rfl⟩

/-- Every row of R45 carries its register's own offset and mask. -/
theorem registerMap_rows : ∀ row ∈ Claims.registerMap, row.2.1 = row.1.offset ∧ row.2.2 = row.1.mask := by decide

theorem registerMap_complete : ∀ x ∈ Reg.all, (x, x.offset, x.mask) ∈ Claims.registerMap := by decide

theorem mem_registerMap_iff (x : Reg) (a : Nat) (m : Word) :
    (x, a, m) ∈ Claims.registerMap ↔ a = x.offset ∧ m = x.mask := by
  constructor
  · exact registerMap_rows _
  · rintro ⟨rfl, rfl⟩
    exact registerMap_complete x x.mem_all

/-- Settles O11: both readings of an access are `accessReg_eq_some_iff`, the second through the rows of R45. -/
theorem registerMapReachesEachRegisterOnce : Obligations.RegisterMapReachesEachRegisterOnce := by
  refine ⟨fun a n x => ⟨accessReg_eq_some_iff a n x, ?_⟩, mem_registerMap_iff⟩
  simp [accessReg_eq_some_iff, mem_registerMap_iff]

/-! ### Host writes to registers -/

theorem Regs.afterWrite_cmd (r : Regs) (frac : Config.Frac) {a n : Nat} (v : Word) (h : accessReg a n = some .cmd) :
    r.afterWrite frac a n v = r.afterWord frac v := by
  simp only [Regs.afterWrite, h]

theorem Regs.afterWrite_status (r : Regs) (frac : Config.Frac) {a n : Nat} (v : Word)
    (h : accessReg a n = some .status) : r.afterWrite frac a n v = r.clearFaults v := by
  simp only [Regs.afterWrite, h]

theorem Regs.afterWrite_plain (r : Regs) (frac : Config.Frac) {a n : Nat} (v : Word) {x : Reg}
    (h : accessReg a n = some x) (hcmd : x ≠ .cmd) (hstatus : x ≠ .status) :
    r.afterWrite frac a n v = r.hostWrite x v := by
  unfold Regs.afterWrite
  rw [h]
  cases x <;> first | rfl | contradiction

theorem Regs.afterWrite_bad (r : Regs) (frac : Config.Frac) {a n : Nat} (v : Word) (h : accessReg a n = none) :
    r.afterWrite frac a n v = r.raise .badAddress := by
  simp only [Regs.afterWrite, h]

/-- A step whose move is a write inside the block (20_memory.md R71). -/
theorem step_write {s : State} {a n : Nat} {v : Word} {rest : List HostMove} (hp : s.pending = .write a n v :: rest)
    (ha : a < 0x200) :
    step s = .next { s with regs := s.regs.afterWrite s.frac a n v, pending := rest } := by
  simp [step, nextMove, hp, hostMove, inBlock, ha, busWrite_eq]

/-- A 4-byte write at a register's offset, to any register (20_memory.md R71). -/
theorem step_write_offset {s : State} {x : Reg} {v : Word} {rest : List HostMove}
    (hp : s.pending = .write x.offset 4 v :: rest) :
    step s = .next { s with regs := s.regs.afterWrite s.frac x.offset 4 v, pending := rest } :=
  step_write hp x.offset_in_block.2

/-- Settles O12: the row's offset and mask are the register's own, and the step is `hostWrite`. -/
theorem plainWriteStoresMaskedValue : Obligations.PlainWriteStoresMaskedValue := by
  refine ⟨fun x => ⟨x.offset, x.mask, (mem_registerMap_iff _ _ _).2 ⟨rfl, rfl⟩⟩, ?_⟩
  intro s x a m v rest hrow hcmd hstatus hp
  obtain ⟨rfl, rfl⟩ := (mem_registerMap_iff x a m).1 hrow
  refine ⟨_, step_write_offset hp, ?_, rfl, rfl, rfl, fun y hy => ?_⟩
  · simp [Regs.afterWrite_plain _ _ _ (accessReg_offset x) hcmd hstatus, Regs.hostWrite_get]
  · have hyx : y ≠ x := by simpa using hy
    simp [Regs.afterWrite_plain _ _ _ (accessReg_offset x) hcmd hstatus, Regs.hostWrite_get, hyx]

/-- Bit `k` of the mask of STATUS is one of bits 2..0 (10_state.md R27). -/
theorem statusMask_getLsbD (k : Nat) : statusMask.getLsbD k = decide (k < 3) := by
  by_cases hk : k < 32
  · interval_cases k <;> rfl
  · rw [BitVec.getLsbD_of_ge _ _ (by omega)]
    simp; omega

theorem statusClear_getLsbD (v status : Word) (k : Nat) :
    (statusClear v status).getLsbD k = (status.getLsbD k && !(k < 3 && v.getLsbD k)) := by
  by_cases hk : k < 32
  · simp only [statusClear, BitVec.getLsbD_and, BitVec.getLsbD_not, statusMask_getLsbD, hk, decide_true, Bool.true_and,
      Bool.and_comm (v.getLsbD k)]
  · simp [BitVec.getLsbD_of_ge _ k (Nat.le_of_not_lt hk)]

/-- Settles O14: the step is `clearFaults`, read bit by bit. -/
theorem statusWriteOneToClear : Obligations.StatusWriteOneToClear := by
  intro s v rest hp
  have hstep := step_write_offset (x := .status) hp
  rw [Regs.afterWrite_status _ _ _ (accessReg_offset .status)] at hstep
  refine ⟨_, hstep, statusClear_getLsbD v s.regs.status, rfl, rfl, rfl, fun x hx => ?_⟩
  have hne : x ≠ .status := by simpa using hx
  simp [Regs.clearFaults_get, hne]

/-! ### What a step keeps of the register file -/

/-- A property of the register file that every update other than a host write to a plain register keeps: the word stored in CMD, a
fault raised or cleared, a command, and reset. -/
structure Regs.Invariant (P : Regs → Prop) : Prop where
  cmd : ∀ r w, P r → P (r.set .cmd w)
  raise : ∀ r f, P r → P (r.raise f)
  clearFaults : ∀ r v, P r → P (r.clearFaults v)
  command : ∀ r frac i, P r → P (r.afterCommand frac i)
  reset : P Regs.reset

/-- A word written to CMD: stored, then its command or IllegalCommand (30_encoding.md R105). -/
theorem Regs.Invariant.afterWord {P : Regs → Prop} (hP : Regs.Invariant P) (r : Regs) (frac : Config.Frac) (w : Word)
    (hr : P r) : P (r.afterWord frac w) := by
  unfold Regs.afterWord
  split
  · exact hP.command _ _ _ (hP.cmd _ _ hr)
  · exact hP.raise _ _ (hP.cmd _ _ hr)

/-- A step keeps such a property if the plain write that may be the host's next move keeps it. -/
theorem Regs.Invariant.step {P : Regs → Prop} (hP : Regs.Invariant P) {s t : State} (h : step s = .next t)
    (hwrite : ∀ x v, s.pending.head? = some (.write x.offset 4 v) → P (s.regs.hostWrite x v)) (hs : P s.regs) :
    P t.regs := by
  obtain ⟨_, rfl⟩ | ⟨rest, ⟨_, _, _, _, _, _, rfl⟩ | ⟨_, _, _, _, _, rfl⟩ | ⟨a, n, v, hp, _, rfl⟩ | ⟨_, rfl⟩⟩ :=
    step_cases h
  case inl => exact hs
  case inr.inl => exact hs
  case inr.inr.inl => exact hP.raise _ _ hs
  case inr.inr.inr.inr => exact hP.reset
  case inr.inr.inr.inl =>
    cases hx : accessReg a n with
    | none => exact s.regs.afterWrite_bad s.frac v hx ▸ hP.raise _ _ hs
    | some x =>
      by_cases hcmd : x = .cmd
      · subst hcmd
        exact s.regs.afterWrite_cmd s.frac v hx ▸ hP.afterWord _ _ _ hs
      by_cases hstatus : x = .status
      · subst hstatus
        exact s.regs.afterWrite_status s.frac v hx ▸ hP.clearFaults _ _ hs
      obtain ⟨rfl, rfl⟩ := (accessReg_eq_some_iff a n x).1 hx
      exact s.regs.afterWrite_plain s.frac v hx hcmd hstatus ▸ hwrite x v (by simp [hp])

/-! ### The masks -/

/-- A register of full width keeps to its mask whatever it holds. -/
theorem Regs.get_and_mask_of_full (r : Regs) {x : Reg} (hx : x.mask = 0xFFFFFFFF) : r.get x &&& x.mask = r.get x := by
  rw [hx]
  exact BitVec.and_allOnes

/-- Masks are kept by an update whose changed registers keep to theirs. -/
theorem Regs.Masked.of_frame {r r' : Regs} (h : r.Masked) {xs : List Reg}
    (hxs : ∀ x ∈ xs, r'.get x &&& x.mask = r'.get x) (hframe : ∀ {x}, x ∉ xs → r'.get x = r.get x) : r'.Masked := by
  intro x
  by_cases hx : x ∈ xs
  · exact hxs x hx
  · rw [hframe hx]
    exact h x

/-- Masks are kept by an update that changes registers of full width only. -/
theorem Regs.Masked.of_full_frame {r r' : Regs} (h : r.Masked) {xs : List Reg} (hxs : ∀ x ∈ xs, x.mask = 0xFFFFFFFF)
    (hframe : ∀ {x}, x ∉ xs → r'.get x = r.get x) : r'.Masked :=
  h.of_frame (fun x hx => r'.get_and_mask_of_full (hxs x hx)) hframe

theorem Regs.Masked.setCmd {r : Regs} (h : r.Masked) (w : Word) : (r.set .cmd w).Masked :=
  h.of_full_frame (xs := [.cmd]) (by decide) fun hx => r.get_set_ne w (by simpa using hx)

theorem StickyFault.mask_and_statusMask (f : StickyFault) : f.mask &&& statusMask = f.mask := by
  cases f <;> decide

theorem Regs.Masked.raise {r : Regs} (h : r.Masked) (f : StickyFault) : (r.raise f).Masked := by
  refine h.of_frame (xs := [.status]) (List.forall_mem_singleton.2 ?_) fun hx => by simp_all [Regs.raise_get]
  have hstatus : r.status &&& statusMask = r.status := h .status
  change (r.status ||| f.mask) &&& statusMask = r.status ||| f.mask
  rw [BitVec.and_or_distrib_right, hstatus, f.mask_and_statusMask]

theorem Regs.Masked.clearFaults {r : Regs} (h : r.Masked) (v : Word) : (r.clearFaults v).Masked := by
  refine h.of_frame (xs := [.status]) (List.forall_mem_singleton.2 ?_) fun hx => by simp_all [Regs.clearFaults_get]
  have hstatus : r.status &&& statusMask = r.status := h .status
  change statusClear v r.status &&& statusMask = statusClear v r.status
  rw [statusClear, BitVec.and_assoc, BitVec.and_comm _ statusMask, ← BitVec.and_assoc, hstatus]

/-- The mask is what a host write drops the other bits with (10_state.md R46). -/
theorem Regs.Masked.hostWrite {r : Regs} (h : r.Masked) (x : Reg) (v : Word) : (r.hostWrite x v).Masked := by
  refine h.of_frame (xs := [x]) ?_ fun hx => by simp_all [Regs.hostWrite_get]
  simp [Regs.hostWrite_get, BitVec.and_assoc]

/-- New results stay within masks: every OUT register has full width. -/
theorem Regs.Masked.withOut {r : Regs} (h : r.Masked) (o : Six) : Regs.Masked { r with out := o } :=
  h.of_full_frame (xs := [.out 0, .out 1, .out 2, .out 3, .out 4, .out 5]) (by decide)
    fun hx => r.out_frame o _ (fun i hi => by fin_cases i <;> simp at hi) hx

theorem Regs.Masked.bankSample {r : Regs} (h : r.Masked) (frac : Config.Frac) (m : Int) :
    (r.bankSample frac m).Masked :=
  h.of_full_frame (by decide) (r.bankSample_frame frac m)

theorem Regs.Masked.piStep {r : Regs} (h : r.Masked) (frac : Config.Frac) (i : Fin 4) (e : Int) :
    (r.piStep frac i e).Masked :=
  h.of_full_frame (by simp [Reg.mask]) (r.piStep_frame frac i e)

/-- The construction copies NOMTICKS to RELOAD, which has the same mask, and clears CARRY (45_pll.md R251). -/
theorem Regs.Masked.pllConstruct {r : Regs} (h : r.Masked) : r.pllConstruct.Masked := by
  intro x
  cases x with
  | reload => exact h .nomticks
  | carry => exact BitVec.zero_and
  | status => exact h .status
  | ctrl => exact h .ctrl
  | fref => exact h .fref
  | fmin => exact h .fmin
  | nomticks => exact h .nomticks
  | lpfk => exact h .lpfk
  | pi i f =>
    cases f with
    | maxi =>
      have hkept : r.pllConstruct.get (.pi i .maxi) = r.get (.pi i .maxi) := by fin_cases i <;> rfl
      rw [hkept]
      exact h _
    | _ => exact Regs.get_and_mask_of_full _ rfl
  | _ => exact Regs.get_and_mask_of_full _ rfl

theorem Regs.Masked.pllinitCmd {r : Regs} (h : r.Masked) : r.pllinitCmd.Masked := by
  unfold Regs.pllinitCmd
  split
  · exact h.raise _
  · exact h.pllConstruct

theorem Regs.Masked.pllDq {r : Regs} (h : r.Masked) : r.pllDq.Masked := by
  unfold Regs.pllDq
  split
  · exact h.of_full_frame (by decide) r.pllDecouple_frame
  · exact h.of_full_frame (by decide) r.pllPlain_frame

/-- A word keeps to the 16-bit mask exactly when it is below one tick. -/
theorem and_mask16_eq_self_iff (w : Word) : w &&& 0x0000FFFF = w ↔ w.toNat < 65536 := by
  rw [← BitVec.toNat_inj, BitVec.toNat_and]
  change w.toNat &&& (2 ^ 16 - 1) = w.toNat ↔ _
  rw [Nat.and_two_pow_sub_one_eq_mod]
  omega

theorem u32_and_mask16 {n : Int} (h0 : 0 ≤ n) (h1 : n < 65536) : u32 n &&& 0x0000FFFF = u32 n := by
  obtain ⟨k, rfl⟩ := Int.eq_ofNat_of_zero_le h0
  rw [and_mask16_eq_self_iff]
  simp only [u32, BitVec.ofInt_natCast, BitVec.toNat_ofNat]
  omega

/-- The mask of CARRY holds it below one tick (10_state.md R44). -/
theorem Regs.Masked.carryBelowTick {r : Regs} (h : r.Masked) : r.CarryBelowTick :=
  (and_mask16_eq_self_iff r.carry).1 (h .carry)

/-- RELOAD saturates at 16 bits, and the one full tick that CARRY can gather is moved out of it (45_pll.md R266, R267). -/
theorem Regs.pllReload_masks (r : Regs) (hcarry : r.CarryBelowTick) :
    r.pllReload.reload &&& 0x0000FFFF = r.pllReload.reload ∧ r.pllReload.carry &&& 0x0000FFFF = r.pllReload.carry := by
  have hq := r.reloadQuotient_nonneg
  have hc0 := uns_nonneg r.carry
  have hc1 : uns r.carry < 65536 := by simpa [uns] using hcarry
  unfold Regs.pllReload
  dsimp only
  split <;> exact ⟨u32_and_mask16 (by omega) (by omega), u32_and_mask16 (by omega) (by omega)⟩

theorem Regs.Masked.pllReload {r : Regs} (h : r.Masked) : r.pllReload.Masked := by
  obtain ⟨hreload, hcarry⟩ := r.pllReload_masks h.carryBelowTick
  refine h.of_frame (xs := [.reload, .carry]) (List.forall_mem_cons.2 ⟨hreload, ?_⟩) r.pllReload_frame
  exact List.forall_mem_singleton.2 hcarry

/-- The steps of PLLSTEP in order, each within masks (45_pll.md R252). -/
theorem Regs.Masked.pllstepCmd {r : Regs} (h : r.Masked) (frac : Config.Frac) : (r.pllstepCmd frac).Masked := by
  have hdq : (r.pllBank frac).pllDq.Masked := (h.bankSample frac _).pllDq
  have hphase := hdq.of_full_frame (by decide) (Regs.pllPhase_frame _ frac)
  have hunit := hphase.of_full_frame (by decide) (Regs.pllUnit_frame _)
  have hclock := hunit.of_full_frame (by decide) (Regs.pllClock_frame _ frac)
  exact hclock.pllReload.withOut _

/-- Every register of the reset state but COS is 0 (10_state.md R53). -/
theorem Regs.reset_get (x : Reg) : Regs.reset.get x = if x = .cos then 0x7FFFFFFF else 0 := by
  cases x with
  | inp i => fin_cases i <;> rfl
  | out i => fin_cases i <;> rfl
  | pi i f => fin_cases i <;> cases f <;> rfl
  | term j f => fin_cases j <;> cases f <;> rfl
  | _ => rfl

theorem Regs.reset_masked : Regs.reset.Masked := by
  intro x
  rw [Regs.reset_get]
  split
  next hx => subst hx; decide
  next => exact BitVec.zero_and

/-- A command keeps the masks: its results, and the state it writes, by the operation that writes them. -/
theorem Regs.Masked.afterCommand {r : Regs} (h : r.Masked) (frac : Config.Frac) (i : Instr) :
    (r.afterCommand frac i).Masked := by
  cases i with
  | nop => exact h
  | uvec | rot | sh120p | sh120n | nharm => exact h.withOut _
  | clarke | clarke0 | iclarke | iclarke0 | park | ipark | abc2dq | l2seq | seq2l => exact h.withOut _
  | piupd sel => exact (h.piStep frac sel _).withOut _
  | bankstep => exact (h.bankSample frac _).withOut _
  | pllinit => exact h.pllinitCmd
  | pllstep => exact h.pllstepCmd frac
  | srst => exact Regs.reset_masked

theorem Regs.masked_invariant : Regs.Invariant Regs.Masked where
  cmd _ w h := h.setCmd w
  raise _ f h := h.raise f
  clearFaults _ v h := h.clearFaults v
  command _ frac i h := h.afterCommand frac i
  reset := Regs.reset_masked

/-- Settles O55: the masks are an invariant of every update, host writes among them. -/
theorem stepKeepsMasks : Obligations.StepKeepsMasks := fun _ _ hs h =>
  Regs.masked_invariant.step h (fun x v _ => hs.hostWrite x v) hs

/-! ### The unit vector of THETA -/

/-- Coherence looks at THETA, SIN and COS only. -/
theorem Regs.Coherent.congr {r r' : Regs} (h : r.Coherent) (htheta : r'.theta = r.theta) (hsin : r'.sin = r.sin)
    (hcos : r'.cos = r.cos) : r'.Coherent := by
  rw [Regs.Coherent, htheta, hsin, hcos]
  exact h

/-- THETA = 0 has the unit vector (0, ONE) (41_trig.md R163). -/
theorem Regs.reset_coherent : Regs.reset.Coherent := by decide

theorem Regs.pllConstruct_coherent (r : Regs) : r.pllConstruct.Coherent := Regs.reset_coherent

/-- Step 4 of PLLSTEP makes (SIN, COS) the unit vector of the new THETA (45_pll.md R264). -/
theorem Regs.pllUnit_coherent (r : Regs) : r.pllUnit.Coherent := ⟨rfl, rfl⟩

/-- The steps after it leave THETA, SIN and COS alone, so PLLSTEP ends coherent from any state. -/
theorem Regs.pllstepCmd_coherent (r : Regs) (frac : Config.Frac) : (r.pllstepCmd frac).Coherent := by
  have hunit := (((r.pllBank frac).pllDq).pllPhase frac).pllUnit_coherent
  exact hunit.congr (by simp [Regs.pllstepCmd]) (by simp [Regs.pllstepCmd]) (by simp [Regs.pllstepCmd])

theorem Regs.Coherent.pllinitCmd {r : Regs} (h : r.Coherent) : r.pllinitCmd.Coherent := by
  unfold Regs.pllinitCmd
  split
  · exact h
  · exact r.pllConstruct_coherent

/-- PLLINIT, PLLSTEP and SRST make (SIN, COS) anew; no other command writes THETA, SIN or COS. -/
theorem Regs.Coherent.afterCommand {r : Regs} (h : r.Coherent) (frac : Config.Frac) (i : Instr) :
    (r.afterCommand frac i).Coherent := by
  cases i with
  | pllinit => exact h.pllinitCmd
  | pllstep => exact r.pllstepCmd_coherent frac
  | srst => exact Regs.reset_coherent
  | _ => exact h

theorem Regs.coherent_invariant : Regs.Invariant Regs.Coherent where
  cmd _ _ h := h
  raise _ _ h := h
  clearFaults _ _ h := h
  command _ frac i h := h.afterCommand frac i
  reset := Regs.reset_coherent

/-- A host write to any other register leaves THETA, SIN and COS as they were. -/
theorem Regs.Coherent.hostWrite {r : Regs} (h : r.Coherent) {x : Reg} (hx : x ∉ [Reg.theta, .sin, .cos]) (v : Word) :
    (r.hostWrite x v).Coherent := by
  have kept : ∀ y ∈ [Reg.theta, .sin, .cos], (r.hostWrite x v).get y = r.get y := fun y hy => by
    rw [Regs.hostWrite_get, if_neg fun (e : y = x) => hx (e ▸ hy)]
  exact h.congr (kept .theta (by decide)) (kept .sin (by decide)) (kept .cos (by decide))

/-- Settles O56: coherence is an invariant of every update but a host write to one of the three, which is no move here. -/
theorem stepKeepsUnitVectorCoherent : Obligations.StepKeepsUnitVectorCoherent := fun _ _ hs hmove h =>
  Regs.coherent_invariant.step h (fun x v hp => hs.hostWrite (fun hx => hmove x hx v hp) v) hs

/-! ### The state after reset -/

/-- Settles O17. -/
theorem resetRegisterValues : Obligations.ResetRegisterValues := Regs.reset_get

theorem Regs.reset_piBounded : Regs.reset.PiBounded := by decide

/-- Settles O57; CARRY below one tick follows from its mask. -/
theorem resetMeetsTheInvariants : Obligations.ResetMeetsTheInvariants :=
  ⟨Regs.reset_masked, Regs.reset_coherent, Regs.reset_piBounded, Regs.reset_masked.carryBelowTick⟩

end Sys2Proof.Machine
end

section
/-! PROOFS. Family 20_memory.md: the host's reads of registers, and the register space seen through its byte lanes. -/

namespace Sys2Proof.Machine

/-! ### Host reads of registers -/

/-- A step whose move is a read inside the block (20_memory.md R71). -/
theorem step_read {s : State} {a n : Nat} {rest : List HostMove} (hp : s.pending = .read a n :: rest) (ha : a < 0x200) :
    step s = busRead a n { s with pending := rest } := by
  simp [step, nextMove, hp, hostMove, inBlock, ha]

/-- Settles O10: the offset of a register is in the block, and an access of 4 bytes there reaches that register. -/
theorem wordReadReturnsRegister : Obligations.WordReadReturnsRegister := by
  intro s x rest hp
  rw [step_read hp x.offset_in_block.2, busRead_eq, accessReg_offset]

/-! ### Byte lanes -/

/-- Lane `k` of a word is digit `k` of its number in base 256 (20_memory.md R73). -/
theorem lane_eq_ofNat (w : Word) (k : Nat) : lane w k = BitVec.ofNat 8 (w.toNat / 256 ^ k) := by
  have hpow : 2 ^ (8 * k) = 256 ^ k := pow_mul 2 8 k
  apply BitVec.eq_of_toNat_eq
  rw [lane, BitVec.extractLsb'_toNat, BitVec.toNat_ofNat, Nat.shiftRight_eq_div_pow, hpow]

/-- The four bytes from a register's offset on are its lanes (20_memory.md R73). -/
theorem Regs.byteAt_offset_add (r : Regs) (x : Reg) {k : Nat} (hk : k < 4) :
    r.byteAt (x.offset + k) = some (lane (r.get x) k) := by
  have halign := x.offset_in_block.1
  have hlane : (x.offset + k) % 4 = k := by omega
  have hreg : regAt x.offset = some x := (regAt_eq_some_iff _ _).2 rfl
  rw [Regs.byteAt, hlane, Nat.add_sub_cancel, hreg, Option.map_some]

/-- A byte depends on no register but the one whose four bytes it is among. -/
theorem Regs.byteAt_congr {r r' : Regs} {a : Nat}
    (h : ∀ x : Reg, x.offset ≤ a → a < x.offset + 4 → r'.get x = r.get x) : r'.byteAt a = r.byteAt a := by
  unfold Regs.byteAt
  refine Option.map_congr fun x hx => ?_
  have hoff : a - a % 4 = x.offset := (regAt_eq_some_iff _ _).1 hx
  rw [h x (by omega) (by omega)]

/-- Settles O13: the step is `hostWrite`, whose frame over the registers is a frame over their bytes. -/
theorem wordWriteTouchesItsFourBytesOnly : Obligations.WordWriteTouchesItsFourBytesOnly := by
  intro s x v rest hcmd hstatus hp
  have hstep := step_write_offset hp
  rw [Regs.afterWrite_plain _ _ _ (accessReg_offset x) hcmd hstatus] at hstep
  refine ⟨_, hstep, fun k hk => ?_, fun a ha => ?_⟩
  · rw [Regs.byteAt_offset_add _ _ hk, Regs.hostWrite_get, if_pos rfl, lane_eq_ofNat]
  · refine Regs.byteAt_congr fun y hle hlt => ?_
    have hne : y ≠ x := by
      rintro rfl
      exact ha ⟨hle, hlt⟩
    rw [Regs.hostWrite_get, if_neg hne]

end Sys2Proof.Machine
end

section
/-! PROOFS. Family 30_encoding.md: the fields of the command word, the opcode table read both ways, and the write to CMD that runs a
command. -/

namespace Sys2Proof

/-! ### The fields of a word -/

/-- The three fields are all of the word, and determine it (30_encoding.md R101, R102). -/
theorem fields_append (w : Word) : zeroField w ++ selField w ++ opcField w = w := by
  have hhigh : zeroField w ++ selField w = w.extractLsb' 8 24 := BitVec.extractLsb'_append_extractLsb'_eq_extractLsb' rfl
  have hall : w.extractLsb' 8 24 ++ opcField w = w.extractLsb' 0 32 :=
    BitVec.extractLsb'_append_extractLsb'_eq_extractLsb' rfl
  rw [hhigh, hall, BitVec.extractLsb'_eq_self]

theorem word_eq_iff_fields (v w : Word) :
    v = w ↔ zeroField v = zeroField w ∧ opcField v = opcField w ∧ selField v = selField w := by
  constructor
  · rintro rfl
    exact ⟨rfl, rfl, rfl⟩
  · rintro ⟨hzero, hopc, hsel⟩
    rw [← fields_append v, ← fields_append w, hzero, hopc, hsel]

/-- The mask of PIUPD's row drops SEL and keeps the other two fields (30_encoding.md R109). -/
theorem fields_and_selMask (w : Word) :
    zeroField (w &&& 0xFFFFFCFF) = zeroField w ∧ opcField (w &&& 0xFFFFFCFF) = opcField w ∧
      selField (w &&& 0xFFFFFCFF) = 0 := by
  simp only [zeroField, opcField, selField, BitVec.extractLsb'_and]
  exact ⟨BitVec.and_allOnes, BitVec.and_allOnes, BitVec.and_zero⟩

theorem selField_toNat (w : Word) : (selField w).toNat = w.toNat / 256 % 4 := by
  rw [selField, BitVec.extractLsb'_toNat, Nat.shiftRight_eq_div_pow]

/-! ### The opcode table, read both ways -/

/-- Every command keeps to format C (30_encoding.md R101). -/
theorem encode_formatC (i : Instr) : Laws.FormatC.Statement i := by
  cases i with
  | nop => exact Laws.FormatC.nop
  | uvec => exact Laws.FormatC.uvec
  | rot => exact Laws.FormatC.rot
  | sh120p => exact Laws.FormatC.sh120p
  | sh120n => exact Laws.FormatC.sh120n
  | nharm => exact Laws.FormatC.nharm
  | clarke => exact Laws.FormatC.clarke
  | clarke0 => exact Laws.FormatC.clarke0
  | iclarke => exact Laws.FormatC.iclarke
  | iclarke0 => exact Laws.FormatC.iclarke0
  | park => exact Laws.FormatC.park
  | ipark => exact Laws.FormatC.ipark
  | abc2dq => exact Laws.FormatC.abc2dq
  | l2seq => exact Laws.FormatC.l2seq
  | seq2l => exact Laws.FormatC.seq2l
  | piupd sel => exact Laws.FormatC.piupd sel
  | bankstep => exact Laws.FormatC.bankstep
  | pllinit => exact Laws.FormatC.pllinit
  | pllstep => exact Laws.FormatC.pllstep
  | srst => exact Laws.FormatC.srst

/-- A word is a command's encoding exactly when its fields are the command's. -/
theorem eq_encode_iff_fields (w : Word) (i : Instr) :
    w = encode i ↔ zeroField w = 0 ∧ opcField w = i.opc ∧ selField w = i.selBits := by
  obtain ⟨hzero, hopc, hsel, -⟩ := encode_formatC i
  rw [word_eq_iff_fields, hzero, hopc, hsel]

/-- The table row of an OPC value: its command's OPC is that value, and only PIUPD's row holds SEL (30_encoding.md R103, R109). -/
theorem opcodeRow_eq_some_iff (n : Nat) (sel : Fin 4) (i : Instr) :
    opcodeRow n sel = some i ↔ n = i.opc.toNat ∧ (i.opc = 0x20 → BitVec.ofFin sel = i.selBits) := by
  constructor
  · intro h
    unfold opcodeRow at h
    split at h <;> cases h <;> exact ⟨rfl, by decide +revert⟩
  · rintro ⟨rfl, hsel⟩
    cases i with
    | piupd inst =>
      have hinst : sel = inst := congrArg BitVec.toFin (hsel rfl)
      rw [hinst]
      rfl
    | _ => rfl

/-- The three tests of decoding, as facts about the fields (30_encoding.md R105). -/
theorem decode_eq_ok_iff_row (w : Word) (i : Instr) :
    decode w = .ok i ↔ zeroField w = 0 ∧ opcodeRow (opcField w).toNat (selField w).toFin = some i ∧
      (opcField w ≠ 0x20 → selField w = 0) := by
  unfold decode
  split
  next hzero => exact ⟨nofun, fun ⟨h, _⟩ => absurd h hzero⟩
  next hzero =>
    have hzero' : zeroField w = 0 := not_not.1 hzero
    cases opcodeRow (opcField w).toNat (selField w).toFin with
    | none => exact ⟨nofun, nofun⟩
    | some j =>
      dsimp only
      split
      next hrej => exact ⟨nofun, fun ⟨_, _, hsel⟩ => absurd (hsel hrej.1) hrej.2⟩
      next hacc =>
        have hsel : opcField w ≠ 0x20 → selField w = 0 := fun h => not_not.1 fun hne => hacc ⟨h, hne⟩
        rw [Except.ok.injEq, Option.some.injEq]
        exact ⟨fun h => ⟨hzero', h, hsel⟩, fun ⟨_, h, _⟩ => h⟩

/-- Decoding reads off the fields of a command, and SEL is 0 but for PIUPD (30_encoding.md R101, R105). -/
theorem decode_eq_ok_iff_fields (w : Word) (i : Instr) :
    decode w = .ok i ↔ zeroField w = 0 ∧ opcField w = i.opc ∧ selField w = i.selBits := by
  obtain ⟨-, -, -, hselZero, -⟩ := encode_formatC i
  rw [decode_eq_ok_iff_row, opcodeRow_eq_some_iff, BitVec.toNat_inj]
  refine and_congr_right fun _ => ?_
  constructor
  · rintro ⟨⟨hopc, hpi⟩, hother⟩
    refine ⟨hopc, ?_⟩
    by_cases h : i.opc = 0x20
    · exact hpi h
    · rw [hother (hopc ▸ h), hselZero h]
  · rintro ⟨hopc, hsel⟩
    exact ⟨⟨hopc, fun _ => hsel⟩, fun h => by rw [hsel, hselZero (hopc ▸ h)]⟩

/-- Settles O5: each side says that the fields of the word are those of the command. -/
theorem decodeEncodeInverse : Obligations.DecodeEncodeInverse := fun w i => by
  rw [decode_eq_ok_iff_fields, eq_encode_iff_fields]

@[simp] theorem decode_encode (i : Instr) : decode (encode i) = .ok i :=
  (decodeEncodeInverse _ i).2 rfl

/-! ### Rows by match and mask -/

theorem exists_decode_piupd_iff (w : Word) :
    (∃ sel, decode w = .ok (.piupd sel)) ↔ zeroField w = 0 ∧ opcField w = 0x20 := by
  constructor
  · rintro ⟨sel, h⟩
    obtain ⟨hzero, hopc, -⟩ := (decode_eq_ok_iff_fields w _).1 h
    exact ⟨hzero, hopc⟩
  · rintro ⟨hzero, hopc⟩
    exact ⟨(selField w).toFin, (decode_eq_ok_iff_fields w _).2 ⟨hzero, hopc, rfl⟩⟩

theorem and_selMask_eq_iff (w : Word) : w &&& 0xFFFFFCFF = 0x20 ↔ zeroField w = 0 ∧ opcField w = 0x20 := by
  obtain ⟨hzero, hopc, hsel⟩ := fields_and_selMask w
  rw [word_eq_iff_fields, hzero, hopc, hsel]
  exact ⟨fun ⟨hz, ho, _⟩ => ⟨hz, ho⟩, fun ⟨hz, ho⟩ => ⟨hz, ho, rfl⟩⟩

/-- Settles O6: the match of a full-mask row is its command's word; PIUPD's mask leaves SEL free. -/
theorem opcodeRowsSelectByMaskAndMatch : Obligations.OpcodeRowsSelectByMaskAndMatch := by
  intro w
  refine ⟨fun row hrow => ?_, ?_, fun sel h => ?_⟩
  · have hmatch : encode row.2 = row.1 := by revert row; decide
    have hmask : w &&& 0xFFFFFFFF = w := BitVec.and_allOnes
    rw [decodeEncodeInverse, hmatch, hmask]
  · rw [exists_decode_piupd_iff, and_selMask_eq_iff]
  · obtain ⟨-, -, hsel⟩ := (decode_eq_ok_iff_fields w _).1 h
    rw [← selField_toNat, hsel]
    rfl

/-- Settles O7: the legal words are the encodings of their commands; each of the others fails one test of R105. -/
theorem exampleWordsDecode : Obligations.ExampleWordsDecode :=
  ⟨rfl, rfl, rfl, rfl, decode_encode .uvec, decode_encode (.piupd 2), decode_encode .pllstep, decode_encode .srst,
    rfl, rfl, rfl, rfl⟩

end Sys2Proof

namespace Sys2Proof.Machine

/-! ### The write to CMD -/

/-- A step whose move is a 4-byte write to CMD executes the word (20_memory.md R71, 30_encoding.md R100). -/
theorem step_cmd_write {s : State} {w : Word} {rest : List HostMove} (hp : s.pending = .write 0x000 4 w :: rest) :
    step s = executeWord w { s with pending := rest } := by
  rw [step_write_offset (x := .cmd) hp, Regs.afterWrite_cmd _ _ _ (accessReg_offset .cmd), executeWord_eq]

theorem executeWord_of_decode {w : Word} {i : Instr} (h : decode w = .ok i) (s : State) :
    executeWord w s = exec i { s with regs := { s.regs with cmd := w } } := by
  rw [executeWord, h]

/-- Settles O8. -/
theorem commandWriteRunsDecodedCommand : Obligations.CommandWriteRunsDecodedCommand := fun _ _ _ _ hp hdec => by
  rw [step_cmd_write hp, executeWord_of_decode hdec]

end Sys2Proof.Machine
end

section
/-! PROOFS. Family 40_arith_primitives.md: saturation, the wrap to a phase word, the Q31 product and the gain product. -/

namespace Sys2Proof.Machine

/-! ### Saturation and wrap -/

/-- The signed words, with the bounds written as in R134 and R135. -/
theorem isWord_iff (v : Int) : IsWord v ↔ -2 ^ 31 ≤ v ∧ v ≤ 2 ^ 31 - 1 := Iff.rfl

theorem sat32_of_lt_wordMin {v : Int} (h : v < wordMin) : sat32 v = wordMin := if_pos h

theorem sat32_of_wordMax_lt {v : Int} (h : wordMax < v) : sat32 v = wordMax := by
  have hmin : ¬v < wordMin := by unfold wordMin wordMax at *; omega
  rw [sat32, if_neg hmin, if_pos h]

/-- Settles O1: below, above and inside the signed words. -/
theorem sat32ClampsToNearestBound : Obligations.Sat32ClampsToNearestBound := fun v =>
  ⟨sat32_of_lt_wordMin, sat32_of_wordMax_lt, fun hlo hhi => sat32_of_isWord ((isWord_iff v).2 ⟨hlo, hhi⟩)⟩

theorem wrap32_eq_bmod (v : Int) : wrap32 v = v.bmod (2 ^ 32) := BitVec.toInt_ofInt v

theorem wrap32_of_isWord {v : Int} (h : IsWord v) : wrap32 v = v := s32_u32_of_isWord h

theorem dvd_wrap32_sub (v : Int) : (2 ^ 32 : Int) ∣ wrap32 v - v := by
  rw [wrap32_eq_bmod]
  exact_mod_cast Int.dvd_bmod_sub_self (x := v) (m := 2 ^ 32)

/-- Congruent integers wrap to one word. -/
theorem wrap32_congr {v r : Int} (h : (2 ^ 32 : Int) ∣ r - v) : wrap32 r = wrap32 v := by
  obtain ⟨k, hk⟩ := h
  have hr : r = v + (2 ^ 32 : Nat) * k := by push_cast; omega
  rw [wrap32_eq_bmod, wrap32_eq_bmod, hr, Int.add_mul_bmod_self_left]

/-- Settles O2: a word congruent to `v` is its own wrap, which is the wrap of `v`. -/
theorem wrap32IsTheCongruentWord : Obligations.Wrap32IsTheCongruentWord := by
  intro v r
  rw [← and_assoc, ← isWord_iff]
  constructor
  · rintro rfl
    exact ⟨isWord_wrap32 v, dvd_wrap32_sub v⟩
  · rintro ⟨hword, hdvd⟩
    rw [← wrap32_congr hdvd, wrap32_of_isWord hword]

/-! ### The Q31 product -/

theorem smul31_comm (a b : Int) : smul31 a b = smul31 b a := by
  rw [smul31, smul31, smulAt, smulAt, mul_comm]

theorem abs_le_of_isWord {a : Int} (h : IsWord a) : |a| ≤ 2 ^ 31 := by
  rw [isWord_iff] at h
  exact abs_le.2 (by omega)

/-- The only word of magnitude 2^31 is the least one. -/
theorem abs_lt_of_isWord {a : Int} (h : IsWord a) (hmin : a ≠ wordMin) : |a| < 2 ^ 31 := by
  rw [isWord_iff] at h
  unfold wordMin at hmin
  exact abs_lt.2 (by omega)

/-- With one factor above the least word, the product is short of 2^62 by 2^31 or more, so its floor is a word. -/
theorem isWord_q31_of_left_ne {a b : Int} (ha : IsWord a) (hb : IsWord b) (hmin : a ≠ wordMin) :
    IsWord (a * b / 2 ^ 31) := by
  have habs : |a * b| ≤ (2 ^ 31 - 1) * 2 ^ 31 := by
    rw [abs_mul]
    exact mul_le_mul (Int.le_sub_one_of_lt (abs_lt_of_isWord ha hmin)) (abs_le_of_isWord hb) (abs_nonneg b) (by norm_num)
  obtain ⟨hlo, hhi⟩ := abs_le.1 habs
  rw [isWord_iff]
  omega

theorem smul31_of_left_ne {a b : Int} (ha : IsWord a) (hb : IsWord b) (hmin : a ≠ wordMin) :
    smul31 a b = a * b / 2 ^ 31 := sat32_of_isWord (isWord_q31_of_left_ne ha hb hmin)

/-- Only the square of the least word needs the saturation (R138). -/
theorem smul31_of_not_both_min {a b : Int} (ha : IsWord a) (hb : IsWord b) (h : ¬(a = wordMin ∧ b = wordMin)) :
    smul31 a b = a * b / 2 ^ 31 := by
  obtain hmin | hmin := not_and_or.1 h
  · exact smul31_of_left_ne ha hb hmin
  · rw [smul31_comm, mul_comm a, smul31_of_left_ne hb ha hmin]

theorem isWord_wordMax : IsWord wordMax := ⟨by decide, le_rfl⟩

/-- Multiplication by ONE = 2^31 − 1 takes off the ceiling of `a / 2^31` (R138). -/
theorem smul31_wordMax {a : Int} (ha : IsWord a) : smul31 a wordMax = a + -a / 2 ^ 31 := by
  rw [smul31_of_not_both_min ha isWord_wordMax (fun ⟨_, hone⟩ => absurd hone (by decide))]
  unfold wordMax
  omega

/-- The pattern 0x80000000 is the least word. -/
theorem word_eq_min_iff (a : Word) : a = 0x80000000 ↔ a.toInt = wordMin := BitVec.toInt_inj.symm

/-- Settles O3: the exact product off min times min, and ONE as the ceiling law of `smul31_wordMax` read at each sign. -/
theorem q31ProductExactButForMinTimesMin : Obligations.Q31ProductExactButForMinTimesMin := by
  intro a b
  have ha : IsWord a.toInt := isWord_s32 a
  have hb : IsWord b.toInt := isWord_s32 b
  have hone : smul31 a.toInt 0x7FFFFFFF = a.toInt + -a.toInt / 2 ^ 31 := smul31_wordMax ha
  rw [word_eq_min_iff, word_eq_min_iff, hone]
  refine ⟨rfl, smul31_of_not_both_min ha hb, ?min_min, ?pos, ?nonpos, ?min_one, smul31_comm _ _⟩
  case min_min =>
    rintro ⟨hamin, hbmin⟩
    rw [hamin, hbmin]
    decide
  case pos =>
    obtain ⟨-, hmax⟩ := (isWord_iff _).1 ha
    omega
  case nonpos => omega
  case min_one =>
    intro hamin
    rw [hamin]
    decide

/-! ### The gain product and the sign table -/

theorem smulAt_zero_left (n : Nat) (b : Int) : smulAt n 0 b = 0 := by
  rw [smulAt, zero_mul, Int.zero_ediv]
  decide

/-- Settles O4: the gain product by definition, the row of 0 for every factor, the other rows as closed instances of R147. -/
theorem productSignTable : Obligations.ProductSignTable := by
  refine ⟨fun _ _ _ => rfl, fun b => ⟨smulAt_zero_left 31 b, smulAt_zero_left 16 b⟩, ?rows⟩
  case rows => decide

end Sys2Proof.Machine
end

section
/-! PROOFS. Family 41_trig.md: the sine samples and their interpolation, the unit vector at a knot, and the commands that give two
results each. -/

namespace Sys2Proof.Machine

/-! ### Commands with two results -/

/-- A command that writes two words, `a` to OUT0 and `b` to OUT1, completes, its results read back as these words, and it changes
nothing else (30_encoding.md R104). -/
theorem exec_of_result2 {i : Instr} {s : State} {a b : Int} (hregs : s.regs.afterCommand s.frac i = s.regs.result2 a b)
    (ha : IsWord a) (hb : IsWord b) :
    ∃ t, exec i s = .next t ∧ (t.regs.out.x0.toInt = a ∧ t.regs.out.x1.toInt = b) ∧ OnlyChanges [.out 0, .out 1] s t := by
  have hexec : exec i s = .next { s with regs := s.regs.result2 a b } := hregs ▸ exec_eq i s
  refine ⟨_, hexec, ⟨s32_u32_of_isWord ha, s32_u32_of_isWord hb⟩, rfl, rfl, rfl, fun _ hx => ?_⟩
  exact s.regs.result2_frame a b hx

/-- Settles O25: `rot` is R171's formula. -/
theorem rotRotatesThePair : Obligations.RotRotatesThePair := fun _ =>
  ⟨rfl, exec_of_result2 rfl (isWord_ssub _ _) (isWord_sadd _ _)⟩

/-- Half of a word, floored (40_arith_primitives.md R136). -/
theorem asr_one (v : Int) : asr v 1 = v / 2 := by rw [asr, pow_one]

/-- R173 with the shift read as a floored half and the constant by its number. -/
theorem sh120p_eq (s c : Int) :
    sh120p s c = ⟨ssub (smul31 c 1859775393) (s / 2), ssub (ssub 0 (c / 2)) (smul31 s 1859775393)⟩ := by
  rw [← asr_one, ← asr_one]
  rfl

theorem sh120n_eq (s c : Int) :
    sh120n s c = ⟨ssub (ssub 0 (s / 2)) (smul31 c 1859775393), ssub (smul31 s 1859775393) (c / 2)⟩ := by
  rw [← asr_one, ← asr_one]
  rfl

/-- Settles O26. -/
theorem sh120pAdvancesBy120Degrees : Obligations.Sh120pAdvancesBy120Degrees := fun s =>
  have hregs := congrArg (fun v : SinCos => s.regs.result2 v.sin v.cos) (sh120p_eq (s.regs.operand 0) (s.regs.operand 1))
  ⟨rfl, exec_of_result2 hregs (isWord_ssub _ _) (isWord_ssub _ _)⟩

/-- Settles O27. -/
theorem sh120nSetsBackBy120Degrees : Obligations.Sh120nSetsBackBy120Degrees := fun s =>
  have hregs := congrArg (fun v : SinCos => s.regs.result2 v.sin v.cos) (sh120n_eq (s.regs.operand 0) (s.regs.operand 1))
  ⟨rfl, exec_of_result2 hregs (isWord_ssub _ _) (isWord_ssub _ _)⟩

/-- Settles O28: `nharm` is R176's formula, and the command puts the cosine first. -/
theorem nharmTakesOneRecursionStep : Obligations.NharmTakesOneRecursionStep := fun _ =>
  ⟨rfl, exec_of_result2 rfl (isWord_sat32 _) (isWord_sat32 _)⟩

/-! ### The samples of the full circle -/

theorem claims_quarterWave_eq : Claims.quarterWave = quarterTable := by
  rw [Claims.quarterWave, quarterTable, quarterTable0, quarterTable32, quarterTable64, quarterTable96, quarterTable128]

theorem quarterTable_length : quarterTable.length = 129 := by decide +kernel

/-- Reading the table index by index gives it back whole. -/
theorem map_qt_range : (List.range 129).map qt = quarterTable := by
  refine List.ext_getElem (by simp [quarterTable_length]) fun i _ hi => ?_
  rw [List.getElem_map, List.getElem_range, qt, List.getD_eq_getElem _ _ hi]

theorem quarterTable_bounds : ∀ v ∈ quarterTable, 0 ≤ v ∧ v ≤ 2 ^ 31 := by decide +kernel

/-- An entry of the table is from 0 to 2^31; beyond the table `qt` is 0. -/
theorem qt_bounds (i : Nat) : 0 ≤ qt i ∧ qt i ≤ 2 ^ 31 := by
  rw [qt]
  by_cases hi : i < quarterTable.length
  · rw [List.getD_eq_getElem _ _ hi]
    exact quarterTable_bounds _ (List.getElem_mem hi)
  · rw [List.getD_eq_default _ _ (Nat.le_of_not_lt hi)]
    decide

theorem halfWave_of_le {i : Nat} (hi : i ≤ 128) : halfWave i = qt i := if_pos hi

theorem halfWave_of_lt {i : Nat} (hi : 128 < i) : halfWave i = qt (256 - i) := if_neg (by omega)

theorem halfWave_bounds (i : Nat) : 0 ≤ halfWave i ∧ halfWave i ≤ 2 ^ 31 := by
  obtain hi | hi := Nat.lt_or_ge 128 i
  · exact halfWave_of_lt hi ▸ qt_bounds (256 - i)
  · exact halfWave_of_le hi ▸ qt_bounds i

/-- The index of a sample counts modulo a full turn (R162). -/
theorem sinKnot_mod (i : Nat) : sinKnot (i % 512) = sinKnot i := by
  rw [sinKnot, sinKnot, Nat.mod_mod]

theorem sinKnot_of_le {i : Nat} (hi : i ≤ 256) : sinKnot i = halfWave i := by
  rw [sinKnot, Nat.mod_eq_of_lt (by omega), if_pos hi]

theorem sinKnot_of_lt {i : Nat} (hlo : 256 < i) (hhi : i < 512) : sinKnot i = -halfWave (i - 256) := by
  rw [sinKnot, Nat.mod_eq_of_lt hhi, if_neg (by omega)]

theorem sinKnot_bounds (i : Nat) : -2 ^ 31 ≤ sinKnot i ∧ sinKnot i ≤ 2 ^ 31 := by
  rw [← sinKnot_mod]
  have hlt : i % 512 < 512 := Nat.mod_lt i (by decide)
  obtain hi | hi := Nat.lt_or_ge 256 (i % 512)
  · have hwave := halfWave_bounds (i % 512 - 256)
    rw [sinKnot_of_lt hi hlt]
    omega
  · have hwave := halfWave_bounds (i % 512)
    rw [sinKnot_of_le hi]
    omega

/-- Settles O22: the table by its literals, and each quarter by the branch of `sinKnot` and `halfWave` it is in. -/
theorem knotsFollowTheQuarterWave : Obligations.KnotsFollowTheQuarterWave := by
  refine ⟨⟨map_qt_range.trans claims_quarterWave_eq.symm, by decide +kernel, by decide +kernel⟩, fun i => ?_⟩
  refine ⟨(sinKnot_mod i).symm, (sinKnot_mod (i + 128)).symm, ?rising, ?falling, ?negative, sinKnot_bounds i⟩
  case rising =>
    intro hi
    rw [sinKnot_of_le (by omega), halfWave_of_le hi]
  case falling =>
    intro hlo hhi
    rw [sinKnot_of_le hhi, halfWave_of_lt hlo]
  case negative =>
    intro hlo hhi
    rw [sinKnot_of_lt hlo hhi, sinKnot_of_le (by omega)]

/-! ### The unit vector -/

/-- At fraction 0 the interpolant is the sample itself (R163). -/
theorem herm_zero (p0 p1 m0 m1 : Int) : herm p0 p1 m0 m1 0 = sat32 p0 := by
  simp [herm]

/-- The unit vector depends on the phase word only. -/
theorem uvec_congr {v w : Int} (h : u32 v = u32 w) : uvec v = uvec w := by
  rw [uvec, uvec, h]

theorem u32_knot_toNat {i : Nat} (hi : i < 512) : (u32 ((i : Int) * 2 ^ 23)).toNat = i * 2 ^ 23 := by
  have hcast : (i : Int) * 2 ^ 23 = ((i * 2 ^ 23 : Nat) : Int) := by push_cast; rfl
  rw [hcast, u32, BitVec.ofInt_natCast, BitVec.toNat_ofNat, Nat.mod_eq_of_lt (by omega)]

/-- The word of knot `i` has index `i` and fraction 0 (R163). -/
theorem uvec_knot {i : Nat} (hi : i < 512) : uvec ((i : Int) * 2 ^ 23) = ⟨sat32 (sinKnot i), sat32 (cosKnot i)⟩ := by
  have hindex : i * 2 ^ 23 / 2 ^ 23 = i := Nat.mul_div_cancel i (by decide)
  have hfraction : i * 2 ^ 23 % 2 ^ 23 = 0 := Nat.mul_mod_left i _
  simp only [uvec, u32_knot_toNat hi, hindex, hfraction, Nat.cast_zero, herm_zero]

/-- The unit vector of a phase that has the word of knot `i`. -/
theorem uvec_of_knot_word {i : Nat} (hi : i < 512) {v : Int} (hv : u32 v = u32 ((i : Int) * 2 ^ 23)) :
    uvec v = ⟨sat32 (sinKnot i), sat32 (cosKnot i)⟩ := (uvec_congr hv).trans (uvec_knot hi)

/-- Settles O24: the quarter turns are the words of knots 0, 128, 256 and 384, where the samples 2^31 saturate. -/
theorem uvecExactAtKnots : Obligations.UvecExactAtKnots :=
  ⟨fun _ => uvec_knot,
    (uvec_of_knot_word (i := 0) (by decide) rfl).trans (by decide),
    (uvec_of_knot_word (i := 128) (by decide) rfl).trans (by decide),
    (uvec_of_knot_word (i := 256) (by decide) rfl).trans (by decide),
    (uvec_of_knot_word (i := 384) (by decide) rfl).trans (by decide)⟩

/-- An arithmetic shift by a literal, which the claims read as an integer, is the floored division by that power of two
(40_arith_primitives.md R136). -/
theorem shiftRight_ofNat_eq_asr (v : Int) (n : Nat) [n.AtLeastTwo] : v >>> (ofNat(n) : Int) = asr v n := by
  have hnat : v >>> (ofNat(n) : Int) = v >>> n := Int.shiftRight_natCast_right v n
  rw [hnat, Int.shiftRight_eq_div_pow, asr, Nat.cast_pow, Nat.cast_ofNat]

theorem claims_hermite_eq (p0 p1 m0 m1 t : Int) : Claims.hermite p0 p1 m0 m1 t = herm p0 p1 m0 m1 t := by
  simp only [Claims.hermite, shiftRight_ofNat_eq_asr]
  rfl

/-- The knot of a phase word is its nine upper bits (R166). -/
theorem extract_index_toNat (w : Word) : (w.extractLsb' 23 9).toNat = w.toNat / 2 ^ 23 := by
  rw [BitVec.extractLsb'_toNat, Nat.shiftRight_eq_div_pow]
  omega

/-- The fraction of a phase word is its 23 lower bits (R166). -/
theorem extract_fraction_toNat (w : Word) : (w.extractLsb' 0 23).toNat = w.toNat % 2 ^ 23 := by
  rw [BitVec.extractLsb'_toNat, Nat.shiftRight_zero]

/-- R166 on a phase word, with index and fraction as its bit fields. -/
theorem uvec_s32 (w : Word) :
    uvec (s32 w) =
      let i := (w.extractLsb' 23 9).toNat
      let j := (i + 1) % 512
      let t : Int := (w.extractLsb' 0 23).toNat
      ⟨herm (sinKnot i) (sinKnot j) (sinSlope i) (sinSlope j) t, herm (cosKnot i) (cosKnot j) (cosSlope i) (cosSlope j) t⟩ := by
  simp only [uvec, u32_s32, extract_index_toNat, extract_fraction_toNat]

/-- Settles O23: the results are the two components of the unit vector of IN0, the shifts of the claim its floors. -/
theorem uvecInterpolatesItsOperand : Obligations.UvecInterpolatesItsOperand := by
  intro s
  obtain ⟨t, hexec, ⟨hsin, hcos⟩, hframe⟩ :=
    exec_of_result2 (i := .uvec) (s := s) rfl (isWord_uvec_sin (s.regs.operand 0)) (isWord_uvec_cos (s.regs.operand 0))
  have hvec := uvec_s32 s.regs.inp.x0
  simp only [claims_hermite_eq, shiftRight_ofNat_eq_asr]
  exact ⟨rfl, t, hexec, ⟨hsin.trans (congrArg SinCos.sin hvec), hcos.trans (congrArg SinCos.cos hvec)⟩, hframe⟩

end Sys2Proof.Machine
end

section
/-! PROOFS. Family 42_transforms.md: the reference-frame commands, which give two, three or six results each. -/

namespace Sys2Proof.Machine

/-! ### Commands with three and with six results -/

/-- A command after which the register file is `r` completes, and changes no more than `r` does. -/
theorem exec_of_frame {i : Instr} {s : State} {r : Regs} {xs : List Reg} (hregs : s.regs.afterCommand s.frac i = r)
    (hframe : ∀ x ∉ xs, r.get x = s.regs.get x) :
    exec i s = .next { s with regs := r } ∧ OnlyChanges xs s { s with regs := r } :=
  ⟨hregs ▸ exec_eq i s, rfl, rfl, rfl, hframe⟩

/-- A command that writes three words to OUT0, OUT1 and OUT2 completes, its results read back as these words, and it changes
nothing else (30_encoding.md R104). -/
theorem exec_of_result3 {i : Instr} {s : State} {a b c : Int}
    (hregs : s.regs.afterCommand s.frac i = s.regs.result3 a b c) (ha : IsWord a) (hb : IsWord b) (hc : IsWord c) :
    ∃ t, exec i s = .next t ∧
      (t.regs.out.x0.toInt = a ∧ t.regs.out.x1.toInt = b ∧ t.regs.out.x2.toInt = c) ∧
      OnlyChanges [.out 0, .out 1, .out 2] s t :=
  have ⟨hexec, hframe⟩ := exec_of_frame hregs fun _ hx => s.regs.result3_frame a b c hx
  ⟨_, hexec, ⟨s32_u32_of_isWord ha, s32_u32_of_isWord hb, s32_u32_of_isWord hc⟩, hframe⟩

/-- A command that writes six words to OUT0 to OUT5 completes, its results read back as these words, and it changes nothing else
(30_encoding.md R104). -/
theorem exec_of_result6 {i : Instr} {s : State} {a b c d e f : Int}
    (hregs : s.regs.afterCommand s.frac i = s.regs.result6 a b c d e f) (ha : IsWord a) (hb : IsWord b) (hc : IsWord c)
    (hd : IsWord d) (he : IsWord e) (hf : IsWord f) :
    ∃ t, exec i s = .next t ∧
      (t.regs.out.x0.toInt = a ∧ t.regs.out.x1.toInt = b ∧ t.regs.out.x2.toInt = c ∧
        t.regs.out.x3.toInt = d ∧ t.regs.out.x4.toInt = e ∧ t.regs.out.x5.toInt = f) ∧
      OnlyChanges [.out 0, .out 1, .out 2, .out 3, .out 4, .out 5] s t :=
  have ⟨hexec, hframe⟩ := exec_of_frame hregs fun _ hx => s.regs.result6_frame a b c d e f hx
  ⟨_, hexec, ⟨s32_u32_of_isWord ha, s32_u32_of_isWord hb, s32_u32_of_isWord hc, s32_u32_of_isWord hd,
    s32_u32_of_isWord he, s32_u32_of_isWord hf⟩, hframe⟩

/-- An operand is read from a register, so it is a word (30_encoding.md R103). -/
theorem Regs.isWord_operand (r : Regs) (i : Fin 6) : IsWord (r.operand i) := isWord_s32 _

/-! ### The Clarke maps -/

/-- Settles O29: alpha and beta are R191's formulas, and OUT2 is outside the frame. -/
theorem clarkeGivesAlphaBeta : Obligations.ClarkeGivesAlphaBeta := fun _ =>
  ⟨rfl, exec_of_result2 rfl (isWord_ssub _ _) (isWord_smul31 _ _)⟩

/-- Settles O30: the zero component is one product of the saturated sum (R191). -/
theorem clarke0GivesAlphaBetaZero : Obligations.Clarke0GivesAlphaBetaZero := fun _ =>
  ⟨rfl, exec_of_result3 rfl (isWord_ssub _ _) (isWord_smul31 _ _) (isWord_smul31 _ _)⟩

/-- R194 with the shift read as a floored half and the constant by its number. -/
theorem iclarke_eq (al be : Int) :
    iclarke al be = ⟨al, ssub (smul31 be 1859775393) (al / 2), ssub (ssub 0 (al / 2)) (smul31 be 1859775393)⟩ := by
  rw [← asr_one]
  rfl

/-- The inverse map with a zero component adds it last to each phase of the map without one (R194). -/
theorem iclarke0_eq_iclarke_sadd (al be z : Int) :
    iclarke0 al be z = ⟨sadd (iclarke al be).a z, sadd (iclarke al be).b z, sadd (iclarke al be).c z⟩ := rfl

/-- Settles O31: the first phase is alpha itself, a word since it was read from one. -/
theorem iclarkeGivesThreePhases : Obligations.IclarkeGivesThreePhases := fun s =>
  have hregs := congrArg (fun v : Abc => s.regs.result3 v.a v.b v.c) (iclarke_eq (s.regs.operand 0) (s.regs.operand 1))
  ⟨rfl, exec_of_result3 hregs (s.regs.isWord_operand 0) (isWord_ssub _ _) (isWord_ssub _ _)⟩

/-- Settles O32. -/
theorem iclarke0GivesThreePhases : Obligations.Iclarke0GivesThreePhases := fun s =>
  have hregs := congrArg
    (fun v : Abc => s.regs.result3 (sadd v.a (s.regs.operand 2)) (sadd v.b (s.regs.operand 2)) (sadd v.c (s.regs.operand 2)))
    (iclarke_eq (s.regs.operand 0) (s.regs.operand 1))
  ⟨rfl, exec_of_result3 hregs (isWord_sadd _ _) (isWord_sadd _ _) (isWord_sadd _ _)⟩

/-- Adding 0 to a word does not saturate. -/
theorem sadd_zero_of_isWord {v : Int} (h : IsWord v) : sadd v 0 = v := by
  rw [sadd, add_zero, sat32_of_isWord h]

theorem iclarke0_zero {al : Int} (hal : IsWord al) (be : Int) : iclarke0 al be 0 = iclarke al be := by
  have ha : sadd (iclarke al be).a 0 = (iclarke al be).a := sadd_zero_of_isWord hal
  have hb : sadd (iclarke al be).b 0 = (iclarke al be).b := sadd_zero_of_isWord (isWord_ssub _ _)
  have hc : sadd (iclarke al be).c 0 = (iclarke al be).c := sadd_zero_of_isWord (isWord_ssub _ _)
  rw [iclarke0_eq_iclarke_sadd, ha, hb, hc]

/-- Settles O33: the phases of `iclarke` are words, so that adding a zero component of 0 keeps them. -/
theorem iclarkeIsIclarke0WithZeroComponent : Obligations.IclarkeIsIclarke0WithZeroComponent := fun s hz => by
  have hzero : s.regs.operand 2 = 0 := congrArg s32 hz
  have hsame : s.regs.iclarke0Cmd = s.regs.iclarkeCmd := by
    rw [Regs.iclarke0Cmd, hzero, iclarke0_zero (s.regs.isWord_operand 0), Regs.iclarkeCmd]
  exact ⟨{ s with regs := s.regs.iclarkeCmd }, exec_eq .iclarke s, hsame ▸ exec_eq .iclarke0 s⟩

/-! ### The Park maps -/

/-- Settles O34: `park` is R197's formula, with the sine as IN2 and the cosine as IN3. -/
theorem parkGivesDq : Obligations.ParkGivesDq := fun _ =>
  ⟨rfl, exec_of_result2 rfl (isWord_ssub _ _) (isWord_sadd _ _)⟩

/-- Settles O35: `ipark` is R199's formula. -/
theorem iparkGivesAlphaBeta : Obligations.IparkGivesAlphaBeta := fun _ =>
  ⟨rfl, exec_of_result2 rfl (isWord_sadd _ _) (isWord_ssub _ _)⟩

/-! ### ABC2DQ and the shifted pairs -/

/-- SH120N gives `sh120n` of its operands (41_trig.md R175). -/
theorem exec_sh120n_results (s : State) : ∃ t, exec .sh120n s = .next t ∧
    t.regs.out.x0.toInt = (sh120n (s.regs.operand 0) (s.regs.operand 1)).sin ∧
    t.regs.out.x1.toInt = (sh120n (s.regs.operand 0) (s.regs.operand 1)).cos :=
  have ⟨t, hexec, hout, _⟩ := exec_of_result2 (i := .sh120n) (s := s) rfl (isWord_ssub _ _) (isWord_ssub _ _)
  ⟨t, hexec, hout⟩

/-- SH120P gives `sh120p` of its operands (41_trig.md R174). -/
theorem exec_sh120p_results (s : State) : ∃ t, exec .sh120p s = .next t ∧
    t.regs.out.x0.toInt = (sh120p (s.regs.operand 0) (s.regs.operand 1)).sin ∧
    t.regs.out.x1.toInt = (sh120p (s.regs.operand 0) (s.regs.operand 1)).cos :=
  have ⟨t, hexec, hout, _⟩ := exec_of_result2 (i := .sh120p) (s := s) rfl (isWord_ssub _ _) (isWord_ssub _ _)
  ⟨t, hexec, hout⟩

/-- The state in which the reference pair of an ABC2DQ, its operands IN3 and IN4, is the operand pair of a shift. -/
def State.withReferencePair (s : State) : State :=
  { s with regs := { s.regs with inp := { s.regs.inp with x0 := s.regs.inp.x3, x1 := s.regs.inp.x4 } } }

@[simp] theorem State.withReferencePair_operand_zero (s : State) :
    s.withReferencePair.regs.operand 0 = s.regs.operand 3 := rfl

@[simp] theorem State.withReferencePair_operand_one (s : State) :
    s.withReferencePair.regs.operand 1 = s.regs.operand 4 := rfl

/-- Settles O36: what the two commands give for (IN3, IN4) are the pairs that R201's products take. -/
theorem abc2dqUsesShiftedPairs : Obligations.Abc2dqUsesShiftedPairs := fun s => by
  obtain ⟨m, hm, hmSin, hmCos⟩ := exec_sh120n_results s.withReferencePair
  obtain ⟨p, hp, hpSin, hpCos⟩ := exec_sh120p_results s.withReferencePair
  obtain ⟨t, ht, hout, hframe⟩ :=
    exec_of_result2 (i := .abc2dq) (s := s) rfl (isWord_smul31 _ _) (isWord_smul31 _ _)
  refine ⟨rfl, t, m, p, ht, hm, hp, ?_, hframe⟩
  rw [hmSin, hmCos, hpSin, hpCos, s.withReferencePair_operand_zero, s.withReferencePair_operand_one]
  exact hout

/-! ### Sequence components -/

/-- The rotation by +120 degrees that the statements write out is the model's (R203). -/
theorem claims_plus120_eq (d q : Int) : Claims.plus120 d q = ((rotp ⟨d, q⟩).d, (rotp ⟨d, q⟩).q) := by
  rw [Claims.plus120, ← asr_one, ← asr_one]
  rfl

/-- The rotation by −120 degrees that the statements write out is the model's (R203). -/
theorem claims_minus120_eq (d q : Int) : Claims.minus120 d q = ((rotn ⟨d, q⟩).d, (rotn ⟨d, q⟩).q) := by
  rw [Claims.minus120, ← asr_one, ← asr_one]
  rfl

theorem claims_third_eq (x y z : Int) : Claims.third x y z = third x y z := rfl

theorem isWord_add3 (x y z : Int) : IsWord (add3 x y z) := isWord_sadd _ _

theorem isWord_third (x y z : Int) : IsWord (third x y z) := isWord_smul31 _ _

/-- Settles O37: with the rotations and the third read as the model's, the results are those of `l2seq` (R204). -/
theorem l2seqGivesSequenceComponents : Obligations.L2seqGivesSequenceComponents := fun s => by
  simp only [claims_plus120_eq, claims_minus120_eq, claims_third_eq]
  exact ⟨rfl, exec_of_result6 rfl (isWord_third _ _ _) (isWord_third _ _ _) (isWord_third _ _ _) (isWord_third _ _ _)
    (isWord_third _ _ _) (isWord_third _ _ _)⟩

/-- Settles O38: with the rotations read as the model's, the results are those of `seq2l` (R206). -/
theorem seq2lGivesLines : Obligations.Seq2lGivesLines := fun s => by
  simp only [claims_plus120_eq, claims_minus120_eq]
  exact ⟨rfl, exec_of_result6 rfl (isWord_add3 _ _ _) (isWord_add3 _ _ _) (isWord_add3 _ _ _) (isWord_add3 _ _ _)
    (isWord_add3 _ _ _) (isWord_add3 _ _ _)⟩

end Sys2Proof.Machine
end

section
/-! PROOFS. Family 43_pi.md: one update of a PI instance, the clamp on its integral, and what every command keeps of the clamps. -/

namespace Sys2Proof.Machine

/-! ### One update of an instance -/

/-- The interval [−MAXI, MAXI] is never empty: MAXI is read unsigned (40_arith_primitives.md R145). -/
theorem neg_uns_le_uns (p : Word) : -uns p ≤ uns p := neg_le_self (uns_nonneg p)

/-- R220's clamp as the nearest value of [−MAXI, MAXI]. -/
theorem piIntegral_eq (frac : Config.Frac) (p : PiRegs) (e : Int) :
    piIntegral frac p e = min (max (sadd (s32 p.integ) (smulF frac (s32 p.ki) e)) (-uns p.maxi)) (uns p.maxi) :=
  clamp_eq_min_max (neg_uns_le_uns p.maxi)

/-- An update leaves the integral within its clamp, wherever it was before (R221): MAXI is not written, and the clamped integral
reads back as stored. -/
theorem piUpdate_bounded (frac : Config.Frac) (p : PiRegs) (e : Int) : (piUpdate frac p e).regs.Bounded := by
  rw [PiRegs.Bounded, s32_piUpdate_integ]
  exact clamp_bounds (neg_uns_le_uns p.maxi)

/-- A cleared integral is within every clamp. -/
theorem PiRegs.bounded_set_integ_zero (p : PiRegs) : (p.set .integ 0).Bounded :=
  ⟨neg_nonpos.2 (uns_nonneg p.maxi), uns_nonneg p.maxi⟩

/-- The instance that an update in the register file names holds its clamped integral. -/
theorem Regs.piStep_get_integ (r : Regs) (frac : Config.Frac) (i : Fin 4) (e : Int) :
    s32 ((r.piStep frac i e).get (.pi i .integ)) = piIntegral frac (r.pi.get i) e := by
  have hinst : (r.piStep frac i e).pi.get i = (piUpdate frac (r.pi.get i) e).regs := by simp
  rw [Regs.get, hinst]
  exact s32_piUpdate_integ frac _ e

/-! ### PIUPD -/

/-- PIUPD writes OUT0 and the integral of its instance (R222). -/
theorem Regs.piupdCmd_frame (r : Regs) (frac : Config.Frac) (sel : Fin 4) {x : Reg} (hx : x ∉ [Reg.out 0, .pi sel .integ]) :
    (r.piupdCmd frac sel).get x = r.get x := by
  obtain ⟨hout, hinteg⟩ := not_or.1 (List.mem_cons.not.1 hx)
  calc (r.piupdCmd frac sel).get x
    _ = (r.piStep frac sel (r.operand 0)).get x := Regs.result1_frame _ _ (by simpa using hout)
    _ = r.get x := r.piStep_frame frac sel _ hinteg

/-- The word of PIUPD.i has the instance in bits 9:8 above OPC 0x20 (30_encoding.md R101). -/
theorem encode_piupd : ∀ sel : Fin 4, encode (.piupd sel) = 0x00000020 + 0x100 * BitVec.ofNat 32 sel.val := by decide

/-- Settles O39: the integral is the clamp of R220, and the output is a word, formed from that integral. -/
theorem piupdUpdatesItsInstance : Obligations.PiupdUpdatesItsInstance := fun sel s => by
  obtain ⟨hexec, hframe⟩ := exec_of_frame (i := .piupd sel) (s := s) rfl fun _ hx => s.regs.piupdCmd_frame s.frac sel hx
  have hinteg := s.regs.piStep_get_integ s.frac sel (s.regs.operand 0)
  have hout := s32_u32_of_isWord (isWord_piOutput s.regs s.frac sel (s.regs.operand 0))
  refine ⟨encode_piupd sel, _, hexec, ⟨hinteg.trans (piIntegral_eq _ _ _), hout.trans ?_⟩, hframe⟩
  exact congrArg (sadd _) hinteg.symm

/-! ### The clamps of the four instances -/

/-- What holds of each of four things holds of each after one is replaced by a thing of which it holds. -/
theorem Four.forall_get_set {α : Type} {P : α → Prop} {s : Four α} (h : ∀ i, P (s.get i)) (j : Fin 4) {v : α} (hv : P v)
    (i : Fin 4) : P ((s.set j v).get i) := by
  rw [Four.get_set]
  split
  · exact hv
  · exact h i

theorem Regs.piupdCmd_pi (r : Regs) (frac : Config.Frac) (sel : Fin 4) :
    (r.piupdCmd frac sel).pi = r.pi.set sel (piUpdate frac (r.pi.get sel) (r.operand 0)).regs := rfl

/-- PLLINIT clears the integrals of the two loops (45_pll.md R251). -/
theorem Regs.pllConstruct_pi_eq_set (r : Regs) :
    r.pllConstruct.pi = (r.pi.set 0 ((r.pi.get 0).set .integ 0)).set 1 ((r.pi.get 1).set .integ 0) := rfl

/-- PLLSTEP updates instance 0, then instance 1, and touches the PI block nowhere else (45_pll.md R262, R265). -/
theorem Regs.pllstepCmd_pi (r : Regs) (frac : Config.Frac) : ∃ phaseErr clockErr : Int,
    (r.pllstepCmd frac).pi =
      (r.pi.set 0 (piUpdate frac (r.pi.get 0) phaseErr).regs).set 1 (piUpdate frac (r.pi.get 1) clockErr).regs := by
  have hphase : ((r.pllBank frac).pllDq.pllPhase frac).pi = r.pi.set 0 (piUpdate frac (r.pi.get 0)
      (s32 (r.pllBank frac).pllDq.dqQ)).regs := by simp [Regs.pllBank]
  refine ⟨s32 (r.pllBank frac).pllDq.dqQ, s32 ((r.pllBank frac).pllDq.pllPhase frac).pllUnit.ferr, ?_⟩
  rw [Regs.pllstepCmd, Regs.pllResults_pi, Regs.pllReload_pi, Regs.pllClock_pi, Regs.pllUnit_pi, hphase]
  rfl

theorem Regs.piupdCmd_bounded (r : Regs) (frac : Config.Frac) (sel : Fin 4) :
    ((r.piupdCmd frac sel).pi.get sel).Bounded := by
  rw [Regs.piupdCmd_pi, Four.get_set, if_pos rfl]
  exact piUpdate_bounded frac _ _

theorem Regs.pllstepCmd_bounded (r : Regs) (frac : Config.Frac) :
    ((r.pllstepCmd frac).pi.get 0).Bounded ∧ ((r.pllstepCmd frac).pi.get 1).Bounded := by
  obtain ⟨phaseErr, clockErr, hpi⟩ := r.pllstepCmd_pi frac
  rw [hpi]
  exact ⟨piUpdate_bounded frac (r.pi.get 0) phaseErr, piUpdate_bounded frac (r.pi.get 1) clockErr⟩

/-- Settles O40. -/
theorem integralClampedAfterUpdate : Obligations.IntegralClampedAfterUpdate :=
  ⟨fun sel s => ⟨_, exec_eq (.piupd sel) s, s.regs.piupdCmd_bounded s.frac sel⟩,
    fun s => ⟨_, exec_eq .pllstep s, s.regs.pllstepCmd_bounded s.frac⟩⟩

theorem Regs.PiBounded.piupdCmd {r : Regs} (h : r.PiBounded) (frac : Config.Frac) (sel : Fin 4) :
    (r.piupdCmd frac sel).PiBounded :=
  Four.forall_get_set (P := PiRegs.Bounded) h sel (piUpdate_bounded frac _ _)

theorem Regs.PiBounded.pllConstruct {r : Regs} (h : r.PiBounded) : r.pllConstruct.PiBounded := by
  have hphase := Four.forall_get_set (P := PiRegs.Bounded) h 0 (PiRegs.bounded_set_integ_zero (r.pi.get 0))
  rw [Regs.PiBounded, Regs.pllConstruct_pi_eq_set]
  exact Four.forall_get_set (P := PiRegs.Bounded) hphase 1 (PiRegs.bounded_set_integ_zero _)

theorem Regs.PiBounded.pllinitCmd {r : Regs} (h : r.PiBounded) : r.pllinitCmd.PiBounded := by
  unfold Regs.pllinitCmd
  split
  · exact h
  · exact h.pllConstruct

theorem Regs.PiBounded.pllstepCmd {r : Regs} (h : r.PiBounded) (frac : Config.Frac) : (r.pllstepCmd frac).PiBounded := by
  obtain ⟨phaseErr, clockErr, hpi⟩ := r.pllstepCmd_pi frac
  have hphase := Four.forall_get_set (P := PiRegs.Bounded) h 0 (piUpdate_bounded frac (r.pi.get 0) phaseErr)
  rw [Regs.PiBounded, hpi]
  exact Four.forall_get_set (P := PiRegs.Bounded) hphase 1 (piUpdate_bounded frac _ clockErr)

/-- A command that updates an integral clamps it, PLLINIT and SRST clear, and no other command writes the PI block. -/
theorem Regs.PiBounded.afterCommand {r : Regs} (h : r.PiBounded) (frac : Config.Frac) (i : Instr) :
    (r.afterCommand frac i).PiBounded := by
  cases i with
  | piupd sel => exact h.piupdCmd frac sel
  | pllinit => exact h.pllinitCmd
  | pllstep => exact h.pllstepCmd frac
  | srst => exact Regs.reset_piBounded
  | _ => exact h

/-- Settles O41. -/
theorem commandsKeepIntegralsClamped : Obligations.CommandsKeepIntegralsClamped := fun i s t h hs => by
  rw [(exec_next_iff i s t).1 h]
  exact hs.afterCommand s.frac i

end Sys2Proof.Machine
end

section
/-! PROOFS. Family 44_bank.md: the estimate and the error, one sample of the four terms, and the command BANKSTEP. -/

namespace Sys2Proof.Machine

/-! ### The estimate and the error -/

/-- The sum of alphas that the statements fold over the terms is the estimate of the model (R236, R238). -/
theorem claims_alphaSum_eq (r : Regs) : Claims.alphaSum r = bankEstimate r.term := by
  rw [Claims.alphaSum, List.foldl_cons, List.foldl_cons, List.foldl_cons, List.foldl_cons, List.foldl_nil]
  rfl

theorem isWord_bankEstimate (t : Four TermRegs) : IsWord (bankEstimate t) := isWord_sadd _ _

theorem isWord_bankError (t : Four TermRegs) (m : Int) : IsWord (bankError t m) := isWord_ssub _ _

/-! ### One term -/

/-- The new alpha reads back as the rotated one plus its gain's correction (R237). -/
theorem s32_termStep_alpha (frac : Config.Frac) (t : TermRegs) (err : Int) :
    s32 (termStep frac t err).alpha =
      sadd (rot (s32 t.alpha) (s32 t.beta) (s32 t.cosinc) (s32 t.sininc)).x (smulF frac (s32 t.kalpha) err) :=
  s32_u32_sadd _ _

/-- The new beta reads back as the rotated one plus its gain's correction (R237). -/
theorem s32_termStep_beta (frac : Config.Frac) (t : TermRegs) (err : Int) :
    s32 (termStep frac t err).beta =
      sadd (rot (s32 t.alpha) (s32 t.beta) (s32 t.cosinc) (s32 t.sininc)).y (smulF frac (s32 t.kbeta) err) :=
  s32_u32_sadd _ _

/-- A sample updates every term from its own old state alone, with the one error (R237). -/
theorem bankTerms_get (frac : Config.Frac) (t : Four TermRegs) (err : Int) (j : Fin 4) :
    (bankTerms frac t err).get j = termStep frac (t.get j) err := by
  fin_cases j <;> rfl

/-! ### One sample in the register file -/

theorem Regs.bankSample_get_term (r : Regs) (frac : Config.Frac) (m : Int) (j : Fin 4) (f : TermField) :
    (r.bankSample frac m).get (.term j f) = (termStep frac (r.term.get j) (bankError r.term m)).get f := by
  rw [Regs.get, Regs.bankSample_term, bankTerms_get]

theorem Regs.s32_bankSample_err (r : Regs) (frac : Config.Frac) (m : Int) :
    s32 (r.bankSample frac m).err = bankError r.term m := by
  rw [Regs.bankSample_err, s32_u32_of_isWord (isWord_bankError _ _)]

/-- ACC is the estimate of the terms as the sample leaves them (R238). -/
theorem Regs.s32_bankSample_acc (r : Regs) (frac : Config.Frac) (m : Int) :
    s32 (r.bankSample frac m).acc = bankEstimate (r.bankSample frac m).term := by
  rw [Regs.bankSample_acc, Regs.bankSample_term, s32_u32_of_isWord (isWord_bankEstimate _)]

/-! ### BANKSTEP -/

/-- BANKSTEP is one sample of IN0, published in the results as the stored words themselves (R239). -/
theorem Regs.bankstepCmd_eq (r : Regs) (frac : Config.Frac) :
    let b := r.bankSample frac (r.operand 0)
    r.bankstepCmd frac =
      { b with out := { b.out with x0 := b.term.x0.alpha, x1 := b.term.x0.beta, x2 := b.acc, x3 := b.err } } := by
  simp only [Regs.bankstepCmd, Regs.result4, u32_s32]

/-- The results are the only registers that BANKSTEP sets beyond those of the sample. -/
theorem Regs.bankstepCmd_get (r : Regs) (frac : Config.Frac) {x : Reg} (hx : x ∉ [Reg.out 0, .out 1, .out 2, .out 3]) :
    (r.bankstepCmd frac).get x = (r.bankSample frac (r.operand 0)).get x := Regs.result4_frame _ _ _ _ _ hx

/-- BANKSTEP writes four results, ACC, ERR and the terms' alpha and beta (R239). -/
theorem Regs.bankstepCmd_frame (r : Regs) (frac : Config.Frac) {x : Reg}
    (hx : x ∉ [Reg.out 0, .out 1, .out 2, .out 3, .acc, .err, .term 0 .alpha, .term 0 .beta, .term 1 .alpha, .term 1 .beta,
      .term 2 .alpha, .term 2 .beta, .term 3 .alpha, .term 3 .beta]) : (r.bankstepCmd frac).get x = r.get x := by
  obtain ⟨hout, hsample⟩ := not_or.1 (List.mem_append (s := [Reg.out 0, .out 1, .out 2, .out 3]).not.1 hx)
  exact (r.bankstepCmd_get frac hout).trans (r.bankSample_frame frac _ hsample)

/-- A term after BANKSTEP is the one that the sample of IN0 makes. -/
theorem Regs.bankstepCmd_get_term (r : Regs) (frac : Config.Frac) (j : Fin 4) (f : TermField) :
    (r.bankstepCmd frac).get (.term j f) = (termStep frac (r.term.get j) (bankError r.term (r.operand 0))).get f := by
  rw [r.bankstepCmd_get frac (by simp), r.bankSample_get_term]

/-- Settles O42: the sample's error is common to the four terms, ACC is the estimate of the new ones, and the results are copies of
stored words. -/
theorem bankstepUpdatesTheTerms : Obligations.BankstepUpdatesTheTerms := fun s => by
  obtain ⟨hexec, hframe⟩ :=
    exec_of_frame (i := .bankstep) (r := s.regs.bankstepCmd s.frac) rfl fun _ hx => s.regs.bankstepCmd_frame s.frac hx
  simp only [claims_alphaSum_eq]
  refine ⟨rfl, _, hexec, ⟨?err, ?acc, fun j => ⟨?alpha, ?beta⟩, ?results⟩, hframe⟩
  case err => exact s.regs.s32_bankSample_err s.frac _
  case acc => exact s.regs.s32_bankSample_acc s.frac _
  case alpha =>
    rw [s.regs.bankstepCmd_get_term]
    exact s32_termStep_alpha s.frac _ _
  case beta =>
    rw [s.regs.bankstepCmd_get_term]
    exact s32_termStep_beta s.frac _ _
  case results =>
    rw [s.regs.bankstepCmd_eq]
    exact ⟨rfl, rfl, rfl, rfl⟩

end Sys2Proof.Machine
end

section
/-! PROOFS. Family 45_pll.md: the configuration test and the construction of the PLL, then PLLSTEP: its steps grouped, what each
group leaves alone and what it gives, and the time that a run of ticks keeps. -/

namespace Sys2Proof.Machine

/-! ### Words as patterns -/

/-- An unsigned reading is stored back as the word it came from. -/
theorem u32_uns (p : Word) : u32 (uns p) = p := by
  rw [u32, uns, BitVec.ofInt_natCast, BitVec.ofNat_toNat, BitVec.setWidth_eq]

theorem u32_add (a b : Int) : u32 (a + b) = u32 a + u32 b := BitVec.ofInt_add a b

/-- A value that fits 32 bits unsigned is what its word reads as. -/
theorem toNat_u32 {n : Nat} (hn : n < 2 ^ 32) : (u32 n).toNat = n := by
  rw [u32, BitVec.ofInt_natCast, BitVec.toNat_ofNat, Nat.mod_eq_of_lt hn]

/-! ### PLLINIT -/

theorem Regs.configBad_iff (r : Regs) : r.configBad = true ↔ r.fref = 0 ∨ r.fmin = 0 ∨ r.nomticks = 0 := by
  simp [Regs.configBad, or_assoc]

theorem Regs.pllinitCmd_of_bad {r : Regs} (h : r.fref = 0 ∨ r.fmin = 0 ∨ r.nomticks = 0) :
    r.pllinitCmd = r.raise .configError := if_pos (r.configBad_iff.2 h)

theorem Regs.pllinitCmd_of_good {r : Regs} (h : ¬(r.fref = 0 ∨ r.fmin = 0 ∨ r.nomticks = 0)) :
    r.pllinitCmd = r.pllConstruct := if_neg (r.configBad_iff.not.2 h)

/-- The construction writes the rotating state and the increments of the terms and every state register of the PLL (R251). -/
theorem Regs.pllConstruct_frame (r : Regs) {x : Reg}
    (hx : x ∉ [Reg.term 0 .sininc, .term 0 .cosinc, .term 0 .alpha, .term 0 .beta, .term 1 .sininc, .term 1 .cosinc,
      .term 1 .alpha, .term 1 .beta, .term 2 .sininc, .term 2 .cosinc, .term 2 .alpha, .term 2 .beta, .term 3 .sininc,
      .term 3 .cosinc, .term 3 .alpha, .term 3 .beta, .acc, .err, .dposBar, .qposBar, .dnegBar, .qnegBar, .theta, .sin,
      .cos, .pi 0 .integ, .pi 1 .integ, .ferr, .feff, .dqD, .dqQ, .dqnD, .dqnQ, .reload, .carry]) :
    r.pllConstruct.get x = r.get x := by
  cases x with
  | term j f => fin_cases j <;> cases f <;> first | rfl | (exfalso; revert hx; decide)
  | pi i f => fin_cases i <;> cases f <;> first | rfl | (exfalso; revert hx; decide)
  | _ => first | rfl | (exfalso; revert hx; decide)

theorem Regs.pllConstruct_get_term (r : Regs) (j : Fin 4) (f : TermField) :
    r.pllConstruct.get (.term j f) = (termInit r.fref j (r.term.get j)).get f := by
  fin_cases j <;> rfl

theorem Regs.pllConstruct_get_cleared (r : Regs) :
    ∀ x ∈ [Reg.acc, .err, .dposBar, .qposBar, .dnegBar, .qnegBar, .theta, .sin, .pi 0 .integ, .pi 1 .integ, .ferr, .dqD,
      .dqQ, .dqnD, .dqnQ, .carry], r.pllConstruct.get x = 0 := by
  intro x hx
  fin_cases hx <;> rfl

/-- The phase increment of a term: its harmonic order times FREF, where the wrap of R251 is the product of words. -/
theorem uvec_order_mul (j : Fin 4) (fref : Word) :
    uvec (wrap32 (Config.order j * uns fref)) = uvec (s32 (BitVec.ofNat 32 (2 * j.val + 1) * fref)) := by
  have horder : u32 (Config.order j) = BitVec.ofNat 32 (2 * j.val + 1) := BitVec.ofInt_natCast 32 (2 * j.val + 1)
  refine uvec_congr ?_
  calc u32 (wrap32 (Config.order j * uns fref))
    _ = u32 (Config.order j * uns fref) := u32_s32 _
    _ = u32 (Config.order j) * u32 (uns fref) := BitVec.ofInt_mul _ _
    _ = BitVec.ofNat 32 (2 * j.val + 1) * fref := by rw [horder, u32_uns]
    _ = u32 (s32 (BitVec.ofNat 32 (2 * j.val + 1) * fref)) := (u32_s32 _).symm

/-- A term after the construction: its increment is the unit vector of its harmonic of FREF, its rotating state 0 (R251). -/
theorem termInit_get (fref : Word) (j : Fin 4) (t : TermRegs) :
    let v := uvec (s32 (BitVec.ofNat 32 (2 * j.val + 1) * fref))
    s32 ((termInit fref j t).get .sininc) = v.sin ∧ s32 ((termInit fref j t).get .cosinc) = v.cos ∧
      (termInit fref j t).get .alpha = 0 ∧ (termInit fref j t).get .beta = 0 := by
  rw [← uvec_order_mul]
  exact ⟨s32_u32_uvec_sin _, s32_u32_uvec_cos _, rfl, rfl⟩

/-- Settles O44: a configuration with a zero goes to the fault bit, any other to the construction. -/
theorem pllinitConstructsThePll : Obligations.PllinitConstructsThePll := by
  intro s
  by_cases hbad : s.regs.fref = 0 ∨ s.regs.fmin = 0 ∨ s.regs.nomticks = 0
  case pos =>
    obtain ⟨hexec, hframe⟩ := exec_of_frame (i := .pllinit) (s := s) (xs := [.status]) (Regs.pllinitCmd_of_bad hbad)
      fun x hx => (s.regs.raise_get _ x).trans (if_neg (by simpa using hx))
    refine ⟨rfl, _, hexec, ?_⟩
    rw [if_pos hbad]
    exact ⟨rfl, hframe⟩
  case neg =>
    obtain ⟨hexec, hframe⟩ := exec_of_frame (i := .pllinit) (s := s) (Regs.pllinitCmd_of_good hbad)
      fun _ hx => s.regs.pllConstruct_frame hx
    refine ⟨rfl, _, hexec, ?_⟩
    rw [if_neg hbad]
    refine ⟨fun j => ?_, s.regs.pllConstruct_get_cleared, rfl, rfl, rfl, hframe⟩
    simp only [s.regs.pllConstruct_get_term]
    exact termInit_get _ _ _

/-! ### PLLSTEP, its steps grouped -/

/-- Steps 1 and 2: the bank, then the Dq of the phase loop (R253 to R261). -/
def Regs.pllMeasured (r : Regs) (frac : Config.Frac) : Regs := (r.pllBank frac).pllDq

/-- Steps 1 to 5: also the phase loop, the unit vector and the clock loop (R262 to R265). -/
def Regs.pllTracked (r : Regs) (frac : Config.Frac) : Regs := ((r.pllMeasured frac).pllPhase frac).pllUnit.pllClock frac

theorem Regs.pllstepCmd_eq (r : Regs) (frac : Config.Frac) :
    r.pllstepCmd frac = (r.pllTracked frac).pllReload.pllResults := rfl

theorem Regs.pllResults_frame (r : Regs) {x : Reg} (hx : x ∉ [Reg.out 0, .out 1, .out 2, .out 3, .out 4, .out 5]) :
    r.pllResults.get x = r.get x := Regs.result6_frame _ _ _ _ _ _ _ hx

/-- What the decoupling stage writes beside DQ, for the bit DEC: the negative sequence and the bars, or nothing (R256, R260, R261). -/
def Reg.decoupling (dec : Bool) : List Reg := if dec then [.dqnD, .dqnQ, .dposBar, .qposBar, .dnegBar, .qnegBar] else []

theorem Regs.pllDq_frame (r : Regs) {x : Reg} (hx : x ∉ [Reg.dqD, .dqQ] ++ Reg.decoupling (decBit r.ctrl)) :
    r.pllDq.get x = r.get x := by
  unfold Regs.pllDq
  cases hdec : decBit r.ctrl with
  | true =>
    rw [hdec] at hx
    exact r.pllDecouple_frame hx
  | false =>
    rw [hdec] at hx
    exact r.pllPlain_frame hx

/-- What steps 3 to 7 write: the loops, the phase and its unit vector, the reload, the results (R262 to R268). -/
def Reg.pllLoop : List Reg :=
  [.pi 0 .integ, .pi 1 .integ, .theta, .sin, .cos, .ferr, .feff, .reload, .carry, .out 0, .out 1, .out 2, .out 3, .out 4,
    .out 5]

/-- Steps 3 to 7 leave what the bank and the Dq stage made. -/
theorem Regs.pllstepCmd_get (r : Regs) (frac : Config.Frac) {x : Reg} (hx : x ∉ Reg.pllLoop) :
    (r.pllstepCmd frac).get x = (r.pllMeasured frac).get x := by
  have hpart {xs : List Reg} (hsub : xs ⊆ Reg.pllLoop) : x ∉ xs := fun h => hx (hsub h)
  calc (r.pllstepCmd frac).get x
    _ = (r.pllTracked frac).pllReload.get x := Regs.pllResults_frame _ (hpart (by decide))
    _ = (r.pllTracked frac).get x := Regs.pllReload_frame _ (hpart (by decide))
    _ = ((r.pllMeasured frac).pllPhase frac).pllUnit.get x := Regs.pllClock_frame _ frac (hpart (by decide))
    _ = ((r.pllMeasured frac).pllPhase frac).get x := Regs.pllUnit_frame _ (hpart (by decide))
    _ = (r.pllMeasured frac).get x := Regs.pllPhase_frame _ frac (hpart (by decide))

/-- A register that none of PLLSTEP's parts writes stays; the Dq part writes the negative sequence and the bars only with DEC = 1
(R252). -/
theorem Regs.pllstepCmd_frame (r : Regs) (frac : Config.Frac) {x : Reg}
    (hx : x ∉ [Reg.term 0 .alpha, .term 0 .beta, .term 1 .alpha, .term 1 .beta, .term 2 .alpha, .term 2 .beta, .term 3 .alpha,
      .term 3 .beta, .acc, .err, .dqD, .dqQ, .pi 0 .integ, .pi 1 .integ, .theta, .sin, .cos, .ferr, .feff, .reload, .carry,
      .out 0, .out 1, .out 2, .out 3, .out 4, .out 5] ++ Reg.decoupling (decBit r.ctrl)) :
    (r.pllstepCmd frac).get x = r.get x := by
  obtain ⟨halways, hdec⟩ := not_or.1 (List.mem_append.not.1 hx)
  have hctrl : (r.pllBank frac).ctrl = r.ctrl := Regs.bankSample_ctrl _ _ _
  have hdq : x ∉ [Reg.dqD, .dqQ] := List.notMem_of_subset (by decide) halways
  calc (r.pllstepCmd frac).get x
    _ = (r.pllMeasured frac).get x := r.pllstepCmd_get frac (List.notMem_of_subset (by decide) halways)
    _ = (r.pllBank frac).get x := Regs.pllDq_frame _ (by rw [hctrl, List.mem_append]; exact not_or.2 ⟨hdq, hdec⟩)
    _ = r.get x := r.bankSample_frame frac _ (List.notMem_of_subset (by decide) halways)

/-- Settles O52. -/
theorem pllstepFrame : Obligations.PllstepFrame := fun s =>
  ⟨rfl, _, exec_of_frame (i := .pllstep) (s := s) rfl fun _ hx => s.regs.pllstepCmd_frame s.frac hx⟩

/-! ### The bank -/

theorem Regs.pllstepCmd_term (r : Regs) (frac : Config.Frac) : (r.pllstepCmd frac).term = (r.pllBank frac).term := by
  simp [Regs.pllstepCmd]

theorem Regs.pllstepCmd_acc (r : Regs) (frac : Config.Frac) : (r.pllstepCmd frac).acc = (r.pllBank frac).acc := by
  simp [Regs.pllstepCmd]

theorem Regs.pllstepCmd_err (r : Regs) (frac : Config.Frac) : (r.pllstepCmd frac).err = (r.pllBank frac).err := by
  simp [Regs.pllstepCmd]

/-- The state in which a word stands as the operand IN0. -/
def State.withOperand0 (s : State) (w : Word) : State :=
  { s with regs := { s.regs with inp := { s.regs.inp with x0 := w } } }

/-- BANKSTEP samples the bank, as PLLSTEP does with the Clarke alpha (R253, R254). -/
theorem bankstepCmd_withOperand0_clarkeAlpha (s : State) (frac : Config.Frac) :
    let u := (s.withOperand0 (u32 (clarkeAlpha s.regs.operandAbc))).regs.bankstepCmd frac
    u.term = (s.regs.pllBank frac).term ∧ u.acc = (s.regs.pllBank frac).acc ∧ u.err = (s.regs.pllBank frac).err := by
  have hsample : (s.withOperand0 (u32 (clarkeAlpha s.regs.operandAbc))).regs.operand 0 = clarkeAlpha s.regs.operandAbc :=
    s32_u32_ssub _ _
  rw [Regs.bankstepCmd, hsample]
  exact ⟨rfl, rfl, rfl⟩

/-- Settles O45: both commands sample the bank with one value, and PLLSTEP's later steps leave terms, ACC and ERR. -/
theorem pllstepStepsTheBank : Obligations.PllstepStepsTheBank := by
  intro s
  refine ⟨_, _, _, exec_eq .clarke s, exec_eq .pllstep s, exec_eq .bankstep _, ?_⟩
  obtain ⟨hterm, hacc, herr⟩ := bankstepCmd_withOperand0_clarkeAlpha s s.frac
  exact ⟨(s.regs.pllstepCmd_term s.frac).trans hterm.symm, (s.regs.pllstepCmd_acc s.frac).trans hacc.symm,
    (s.regs.pllstepCmd_err s.frac).trans herr.symm⟩

/-! ### The Dq of the phase loop -/

/-- The plain pair is the Park pair of the new fundamental term against the old (SIN, COS) (R255). -/
theorem Regs.pllBank_dqPos (r : Regs) (frac : Config.Frac) :
    (r.pllBank frac).dqPos =
      park (s32 (r.pllstepCmd frac).term.x0.alpha) (s32 (r.pllstepCmd frac).term.x0.beta) (s32 r.sin) (s32 r.cos) := by
  rw [r.pllstepCmd_term]
  rfl

/-- R257 with the new fundamental term and the old (SIN, COS). -/
theorem Regs.pllBank_dqNeg (r : Regs) (frac : Config.Frac) :
    (r.pllBank frac).dqNeg =
      park (s32 (r.pllstepCmd frac).term.x0.alpha) (s32 (r.pllstepCmd frac).term.x0.beta) (ssub 0 (s32 r.sin)) (s32 r.cos) := by
  rw [r.pllstepCmd_term]
  rfl

/-- The recursion of R176 at N = 2, from harmonic 0 = (ONE, 0) (R257). -/
theorem Regs.doubled_eq (r : Regs) :
    r.doubled = ⟨sat32 (s32 r.cos * s32 r.sin / 2 ^ 30), sat32 (s32 r.cos * s32 r.cos / 2 ^ 30 - 2147483647)⟩ := by
  rw [Regs.doubled, nharm, sub_zero]
  rfl

theorem Regs.pllMeasured_plain {r : Regs} (hdec : decBit r.ctrl = false) (frac : Config.Frac) :
    r.pllMeasured frac = (r.pllBank frac).pllPlain := by
  have hctrl : (r.pllBank frac).ctrl = r.ctrl := Regs.bankSample_ctrl _ _ _
  rw [Regs.pllMeasured, Regs.pllDq, hctrl, hdec]
  rfl

theorem Regs.pllMeasured_decoupled {r : Regs} (hdec : decBit r.ctrl = true) (frac : Config.Frac) :
    r.pllMeasured frac = (r.pllBank frac).pllDecouple := by
  rw [Regs.pllMeasured, Regs.pllDq]
  exact if_pos hdec

/-- With DEC = 0 steps 3 to 7 leave what the plain Dq stage made (R256). -/
theorem Regs.pllstepCmd_get_plain {r : Regs} (hdec : decBit r.ctrl = false) (frac : Config.Frac) {x : Reg}
    (hx : x ∉ Reg.pllLoop) : (r.pllstepCmd frac).get x = (r.pllBank frac).pllPlain.get x :=
  Regs.pllMeasured_plain hdec frac ▸ r.pllstepCmd_get frac hx

/-- With DEC = 1 steps 3 to 7 leave what the decoupling stage made (R261). -/
theorem Regs.pllstepCmd_get_decoupled {r : Regs} (hdec : decBit r.ctrl = true) (frac : Config.Frac) {x : Reg}
    (hx : x ∉ Reg.pllLoop) : (r.pllstepCmd frac).get x = (r.pllBank frac).pllDecouple.get x :=
  Regs.pllMeasured_decoupled hdec frac ▸ r.pllstepCmd_get frac hx

/-- Settles O46: the loops leave DQ as step 2 made it; the negative sequence and the bars are outside PLLSTEP's frame. -/
theorem pllstepPlainDq : Obligations.PllstepPlainDq := by
  intro s hdec
  have hdqD : s32 (s.regs.pllstepCmd s.frac).dqD = (s.regs.pllBank s.frac).dqPos.d :=
    (congrArg s32 (Regs.pllstepCmd_get_plain hdec s.frac (x := .dqD) (by decide))).trans (s32_u32_ssub _ _)
  have hdqQ : s32 (s.regs.pllstepCmd s.frac).dqQ = (s.regs.pllBank s.frac).dqPos.q :=
    (congrArg s32 (Regs.pllstepCmd_get_plain hdec s.frac (x := .dqQ) (by decide))).trans (s32_u32_sadd _ _)
  have hkept {x : Reg} (hx : x ∈ [Reg.dqnD, .dqnQ, .dposBar, .qposBar, .dnegBar, .qnegBar]) :
      (s.regs.pllstepCmd s.frac).get x = s.regs.get x := by
    refine s.regs.pllstepCmd_frame s.frac ?_
    rw [decBit, hdec]
    fin_cases hx <;> decide
  rw [s.regs.pllBank_dqPos] at hdqD hdqQ
  dsimp only [park] at hdqD hdqQ
  exact ⟨_, exec_eq .pllstep s, ⟨hdqD, hdqQ⟩, hkept (x := .dqnD) (by decide), hkept (x := .dqnQ) (by decide),
    hkept (x := .dposBar) (by decide), hkept (x := .qposBar) (by decide), hkept (x := .dnegBar) (by decide),
    hkept (x := .qnegBar) (by decide)⟩

/-- The corrections are handed on unfiltered (R261). -/
theorem Regs.s32_pllDecouple_dq (r : Regs) :
    s32 r.pllDecouple.dqD = r.dqPosHat.d ∧ s32 r.pllDecouple.dqQ = r.dqPosHat.q ∧
      s32 r.pllDecouple.dqnD = r.dqNegHat.d ∧ s32 r.pllDecouple.dqnQ = r.dqNegHat.q :=
  ⟨s32_u32_ssub _ _, s32_u32_ssub _ _, s32_u32_sadd _ _, s32_u32_ssub _ _⟩

theorem isWord_lpf (k y x : Int) : IsWord (lpf k y x) := isWord_sadd _ _

/-- Each bar is filtered towards its correction (R260). -/
theorem Regs.s32_pllDecouple_bars (r : Regs) :
    let k := uns r.lpfk
    s32 r.pllDecouple.dposBar = lpf k (s32 r.dposBar) r.dqPosHat.d ∧
      s32 r.pllDecouple.qposBar = lpf k (s32 r.qposBar) r.dqPosHat.q ∧
      s32 r.pllDecouple.dnegBar = lpf k (s32 r.dnegBar) r.dqNegHat.d ∧
      s32 r.pllDecouple.qnegBar = lpf k (s32 r.qnegBar) r.dqNegHat.q :=
  ⟨s32_u32_of_isWord (isWord_lpf _ _ _), s32_u32_of_isWord (isWord_lpf _ _ _), s32_u32_of_isWord (isWord_lpf _ _ _),
    s32_u32_of_isWord (isWord_lpf _ _ _)⟩

theorem Regs.pllBank_doubled (r : Regs) (frac : Config.Frac) : (r.pllBank frac).doubled = r.doubled := by
  simp only [Regs.doubled, Regs.pllBank, Regs.bankSample_sin, Regs.bankSample_cos]

/-- The positive-sequence correction from the new fundamental term, the old (SIN, COS) and the old bars (R258). -/
theorem Regs.pllBank_dqPosHat (r : Regs) (frac : Config.Frac) :
    (r.pllBank frac).dqPosHat =
      ⟨ssub (ssub (r.pllBank frac).dqPos.d (smul31 r.doubled.cos (s32 r.dnegBar))) (smul31 r.doubled.sin (s32 r.qnegBar)),
        ssub (sadd (r.pllBank frac).dqPos.q (smul31 r.doubled.sin (s32 r.dnegBar)))
          (smul31 r.doubled.cos (s32 r.qnegBar))⟩ := by
  obtain ⟨-, -, hdnegBar, hqnegBar⟩ := r.pllBank_kept_bars frac
  rw [Regs.dqPosHat, r.pllBank_doubled, hdnegBar, hqnegBar]

/-- The negative-sequence correction from the new fundamental term, the old (SIN, COS) and the old bars (R258). -/
theorem Regs.pllBank_dqNegHat (r : Regs) (frac : Config.Frac) :
    (r.pllBank frac).dqNegHat =
      ⟨sadd (ssub (r.pllBank frac).dqNeg.d (smul31 r.doubled.cos (s32 r.dposBar))) (smul31 r.doubled.sin (s32 r.qposBar)),
        ssub (ssub (r.pllBank frac).dqNeg.q (smul31 r.doubled.sin (s32 r.dposBar)))
          (smul31 r.doubled.cos (s32 r.qposBar))⟩ := by
  obtain ⟨hdposBar, hqposBar, -, -⟩ := r.pllBank_kept_bars frac
  rw [Regs.dqNegHat, r.pllBank_doubled, hdposBar, hqposBar]

/-- With DEC = 1 PLLSTEP hands on the two corrected pairs (R261). -/
theorem Regs.s32_pllstepCmd_dq_decoupled {r : Regs} (hdec : decBit r.ctrl = true) (frac : Config.Frac) :
    s32 (r.pllstepCmd frac).dqD = (r.pllBank frac).dqPosHat.d ∧ s32 (r.pllstepCmd frac).dqQ = (r.pllBank frac).dqPosHat.q ∧
      s32 (r.pllstepCmd frac).dqnD = (r.pllBank frac).dqNegHat.d ∧
      s32 (r.pllstepCmd frac).dqnQ = (r.pllBank frac).dqNegHat.q := by
  have hget {x : Reg} (hx : x ∉ Reg.pllLoop) : s32 ((r.pllstepCmd frac).get x) = s32 ((r.pllBank frac).pllDecouple.get x) :=
    congrArg s32 (Regs.pllstepCmd_get_decoupled hdec frac hx)
  obtain ⟨hdqD, hdqQ, hdqnD, hdqnQ⟩ := (r.pllBank frac).s32_pllDecouple_dq
  exact ⟨(hget (x := .dqD) (by decide)).trans hdqD, (hget (x := .dqQ) (by decide)).trans hdqQ,
    (hget (x := .dqnD) (by decide)).trans hdqnD, (hget (x := .dqnQ) (by decide)).trans hdqnQ⟩

/-- With DEC = 1 PLLSTEP filters each old bar towards the correction that it hands on (R260). -/
theorem Regs.s32_pllstepCmd_bars_decoupled {r : Regs} (hdec : decBit r.ctrl = true) (frac : Config.Frac) :
    s32 (r.pllstepCmd frac).dposBar = lpf (uns r.lpfk) (s32 r.dposBar) (s32 (r.pllstepCmd frac).dqD) ∧
      s32 (r.pllstepCmd frac).qposBar = lpf (uns r.lpfk) (s32 r.qposBar) (s32 (r.pllstepCmd frac).dqQ) ∧
      s32 (r.pllstepCmd frac).dnegBar = lpf (uns r.lpfk) (s32 r.dnegBar) (s32 (r.pllstepCmd frac).dqnD) ∧
      s32 (r.pllstepCmd frac).qnegBar = lpf (uns r.lpfk) (s32 r.qnegBar) (s32 (r.pllstepCmd frac).dqnQ) := by
  have hget {x : Reg} (hx : x ∉ Reg.pllLoop) : s32 ((r.pllstepCmd frac).get x) = s32 ((r.pllBank frac).pllDecouple.get x) :=
    congrArg s32 (Regs.pllstepCmd_get_decoupled hdec frac hx)
  have hlpfk : (r.pllBank frac).lpfk = r.lpfk := Regs.bankSample_lpfk _ _ _
  obtain ⟨hdpos, hqpos, hdneg, hqneg⟩ := r.pllBank_kept_bars frac
  obtain ⟨hdqD, hdqQ, hdqnD, hdqnQ⟩ := Regs.s32_pllstepCmd_dq_decoupled hdec frac
  obtain ⟨hdposBar, hqposBar, hdnegBar, hqnegBar⟩ := (r.pllBank frac).s32_pllDecouple_bars
  rw [hlpfk, hdpos] at hdposBar
  rw [hlpfk, hqpos] at hqposBar
  rw [hlpfk, hdneg] at hdnegBar
  rw [hlpfk, hqneg] at hqnegBar
  rw [hdqD, hdqQ, hdqnD, hdqnQ]
  exact ⟨(hget (x := .dposBar) (by decide)).trans hdposBar, (hget (x := .qposBar) (by decide)).trans hqposBar,
    (hget (x := .dnegBar) (by decide)).trans hdnegBar, (hget (x := .qnegBar) (by decide)).trans hqnegBar⟩

/-- Settles O47: the corrections take the old bars, and each bar moves towards its own. -/
theorem pllstepDecouples : Obligations.PllstepDecouples := by
  intro s hdec
  obtain ⟨hdqD, hdqQ, hdqnD, hdqnQ⟩ := Regs.s32_pllstepCmd_dq_decoupled hdec s.frac
  rw [s.regs.pllBank_dqPosHat, s.regs.pllBank_dqPos, s.regs.doubled_eq] at hdqD hdqQ
  rw [s.regs.pllBank_dqNegHat, s.regs.pllBank_dqNeg, s.regs.doubled_eq] at hdqnD hdqnQ
  dsimp only [park] at hdqD hdqQ hdqnD hdqnQ
  exact ⟨_, exec_eq .pllstep s, hdqD, hdqQ, hdqnD, hdqnQ, Regs.s32_pllstepCmd_bars_decoupled hdec s.frac⟩

/-! ### The phase loop, the unit vector and the clock loop -/

/-- The output of an update depends on the instance only. -/
theorem Regs.piOutput_congr {r r' : Regs} {i : Fin 4} (hpi : r.pi.get i = r'.pi.get i) (frac : Config.Frac) (e : Int) :
    r.piOutput frac i e = r'.piOutput frac i e := by
  rw [Regs.piOutput, hpi, Regs.piOutput]

theorem Regs.pllMeasured_pi (r : Regs) (frac : Config.Frac) : (r.pllMeasured frac).pi = r.pi := by
  simp [Regs.pllMeasured, Regs.pllBank]

theorem Regs.pllMeasured_piOutput (r : Regs) (frac : Config.Frac) (i : Fin 4) (e : Int) :
    (r.pllMeasured frac).piOutput frac i e = r.piOutput frac i e :=
  Regs.piOutput_congr (by rw [r.pllMeasured_pi]) frac e

theorem Regs.pllMeasured_theta (r : Regs) (frac : Config.Frac) : (r.pllMeasured frac).theta = r.theta := by
  simp [Regs.pllMeasured, Regs.pllBank]

theorem Regs.pllMeasured_fref (r : Regs) (frac : Config.Frac) : (r.pllMeasured frac).fref = r.fref := by
  simp [Regs.pllMeasured, Regs.pllBank]

/-- The phase loop's error is the Dq that PLLSTEP leaves (R262). -/
theorem Regs.pllstepCmd_dqQ (r : Regs) (frac : Config.Frac) : (r.pllstepCmd frac).dqQ = (r.pllMeasured frac).dqQ :=
  r.pllstepCmd_get frac (x := .dqQ) (by decide)

/-- FERR is the output of the phase loop (R262). -/
theorem Regs.pllstepCmd_ferr (r : Regs) (frac : Config.Frac) :
    (r.pllstepCmd frac).ferr = u32 (r.piOutput frac 0 (s32 (r.pllstepCmd frac).dqQ)) := by
  rw [r.pllstepCmd_dqQ, ← r.pllMeasured_piOutput]
  simp [Regs.pllstepCmd_eq, Regs.pllTracked]

/-- The advance of THETA is a sum of words: the exact sum wraps once (R262). -/
theorem Regs.pllstepCmd_theta (r : Regs) (frac : Config.Frac) :
    (r.pllstepCmd frac).theta = r.theta + r.fref + (r.pllstepCmd frac).ferr := by
  calc (r.pllstepCmd frac).theta
    _ = ((r.pllMeasured frac).pllPhase frac).theta := by simp [Regs.pllstepCmd_eq, Regs.pllTracked]
    _ = u32 (s32 r.theta + uns r.fref + r.piOutput frac 0 (s32 (r.pllstepCmd frac).dqQ)) := by
      rw [Regs.pllPhase_theta, wrap32, u32_s32, r.pllMeasured_theta, r.pllMeasured_fref, r.pllMeasured_piOutput,
        r.pllstepCmd_dqQ]
    _ = r.theta + r.fref + (r.pllstepCmd frac).ferr := by
      rw [u32_add, u32_add, u32_s32, u32_uns, r.pllstepCmd_ferr]

/-- The two loops' instances, with the errors that PLLSTEP leaves in DQ_Q and FERR (R262, R265). -/
theorem Regs.pllstepCmd_pi_eq (r : Regs) (frac : Config.Frac) :
    (r.pllstepCmd frac).pi =
      (r.pi.set 0 (piUpdate frac (r.pi.get 0) (s32 (r.pllstepCmd frac).dqQ)).regs).set 1
        (piUpdate frac (r.pi.get 1) (s32 (r.pllstepCmd frac).ferr)).regs := by
  rw [r.pllstepCmd_ferr, r.pllstepCmd_dqQ, ← r.pllMeasured_piOutput]
  simp [Regs.pllstepCmd_eq, Regs.pllTracked, r.pllMeasured_pi]

/-- FEFF is the saturated sum of FREF and the output of the clock loop (R265). -/
theorem Regs.pllstepCmd_feff (r : Regs) (frac : Config.Frac) :
    (r.pllstepCmd frac).feff = u32 (sadd (uns r.fref) (r.piOutput frac 1 (s32 (r.pllstepCmd frac).ferr))) := by
  have hinst : ((r.pllMeasured frac).pllPhase frac).pllUnit.pi.get 1 = r.pi.get 1 := by simp [r.pllMeasured_pi]
  rw [← Regs.piOutput_congr hinst, r.pllstepCmd_ferr, r.pllstepCmd_dqQ, ← r.pllMeasured_piOutput]
  simp [Regs.pllstepCmd_eq, Regs.pllTracked, r.pllMeasured_fref]

/-- PIUPD with a word as its operand updates the instance by that error. -/
theorem piupdCmd_withOperand0 (s : State) (frac : Config.Frac) (sel : Fin 4) (w : Word) :
    let u := (s.withOperand0 w).regs.piupdCmd frac sel
    u.pi.get sel = (piUpdate frac (s.regs.pi.get sel) (s32 w)).regs ∧ u.out.x0 = u32 (s.regs.piOutput frac sel (s32 w)) := by
  refine ⟨?_, rfl⟩
  rw [Regs.piupdCmd_pi, Four.get_set, if_pos rfl]
  rfl

/-- Settles O48: PIUPD.0 on the new DQ_Q makes the update that PLLSTEP's phase loop makes. -/
theorem pllstepAdvancesThePhase : Obligations.PllstepAdvancesThePhase := by
  intro s
  refine ⟨_, _, exec_eq .pllstep s, exec_eq (.piupd 0) _, ?_⟩
  obtain ⟨hinst, hout⟩ := piupdCmd_withOperand0 s s.frac 0 (s.regs.pllstepCmd s.frac).dqQ
  have hpi : (s.regs.pllstepCmd s.frac).pi.get 0 = _ := congrArg (·.get 0) (s.regs.pllstepCmd_pi_eq s.frac)
  exact ⟨hpi.trans hinst.symm, (s.regs.pllstepCmd_ferr s.frac).trans hout.symm, s.regs.pllstepCmd_theta s.frac⟩

/-- Settles O49: PIUPD.1 on the new FERR makes the update that PLLSTEP's clock loop makes. -/
theorem pllstepEstimatesTheFrequency : Obligations.PllstepEstimatesTheFrequency := by
  intro s
  refine ⟨_, _, exec_eq .pllstep s, exec_eq (.piupd 1) _, ?_⟩
  obtain ⟨hinst, hout⟩ := piupdCmd_withOperand0 s s.frac 1 (s.regs.pllstepCmd s.frac).ferr
  have hpi : (s.regs.pllstepCmd s.frac).pi.get 1 = _ := congrArg (·.get 1) (s.regs.pllstepCmd_pi_eq s.frac)
  have hword := s32_u32_of_isWord (isWord_piOutput s.regs s.frac 1 (s32 (s.regs.pllstepCmd s.frac).ferr))
  have hfeff := (congrArg s32 (s.regs.pllstepCmd_feff s.frac)).trans (s32_u32_sadd _ _)
  rw [← hword, ← hout] at hfeff
  exact ⟨hpi.trans hinst.symm, hfeff⟩

/-- The results are copies of the new registers (R268). -/
theorem Regs.pllstepCmd_out (r : Regs) (frac : Config.Frac) :
    let p := r.pllstepCmd frac
    p.out = ⟨p.theta, p.feff, p.sin, p.cos, p.reload, p.ferr⟩ := by
  simp only [Regs.pllstepCmd_eq, Regs.pllResults_out, u32_s32, Regs.pllResults_theta, Regs.pllResults_feff,
    Regs.pllResults_sin, Regs.pllResults_cos, Regs.pllResults_reload, Regs.pllResults_ferr]

/-- Settles O51: PLLSTEP ends coherent, and a component of a unit vector is a word. -/
theorem pllstepUnitVectorAndResults : Obligations.PllstepUnitVectorAndResults := by
  intro s
  obtain ⟨hsin, hcos⟩ := s.regs.pllstepCmd_coherent s.frac
  exact ⟨_, exec_eq .pllstep s, (congrArg s32 hsin).trans (s32_u32_uvec_sin _),
    (congrArg s32 hcos).trans (s32_u32_uvec_cos _), s.regs.pllstepCmd_out s.frac⟩

/-! ### The reload and the carry -/

theorem Regs.reloadQuotient_eq_tickQuotient (r : Regs) : r.reloadQuotient = r.tickQuotient := r.reloadQuotient_eq

/-- With CARRY below one tick, CARRY and the quotient together are split at the tick: whole ticks to RELOAD, saturated, and the
rest to CARRY (R266, R267). -/
theorem Regs.pllReload_eq {r : Regs} (hcarry : r.CarryBelowTick) :
    r.pllReload =
      { r with
        carry := u32 ((r.carry.toNat + r.tickQuotient) % 65536 : Nat)
        reload := u32 (min ((r.carry.toNat + r.tickQuotient) / 65536 : Nat) 65535) } := by
  have hc : r.carry.toNat < 65536 := hcarry
  unfold Regs.pllReload uns
  rw [r.reloadQuotient_eq_tickQuotient]
  generalize r.carry.toNat = c at hc ⊢
  generalize r.tickQuotient = q
  dsimp only
  split
  next hfull =>
    have hticks : ((c + q) / 65536 : Nat) = (q : Int) / 65536 + 1 := by omega
    have hrest : ((c + q) % 65536 : Nat) = (c : Int) + q % 65536 - 65536 := by omega
    rw [hticks, hrest]
  next hbelow =>
    have hticks : ((c + q) / 65536 : Nat) = (q : Int) / 65536 := by omega
    have hrest : ((c + q) % 65536 : Nat) = (c : Int) + q % 65536 := by omega
    rw [hticks, hrest]

/-- The reload saturates at 16 bits (R267). -/
theorem toNat_u32_min (n : Nat) : (u32 (min (n : Int) 65535)).toNat = min n 65535 := by
  have hcast : min (n : Int) 65535 = (min n 65535 : Nat) := by omega
  rw [hcast]
  exact toNat_u32 (by omega)

theorem Regs.pllReload_toNat {r : Regs} (hcarry : r.CarryBelowTick) :
    r.pllReload.reload.toNat = min ((r.carry.toNat + r.tickQuotient) / 65536) 65535 ∧
      r.pllReload.carry.toNat = (r.carry.toNat + r.tickQuotient) % 65536 := by
  rw [Regs.pllReload_eq hcarry]
  exact ⟨toNat_u32_min _, toNat_u32 (by omega)⟩

/-- The steps before the reload leave CARRY. -/
theorem Regs.pllTracked_carry (r : Regs) (frac : Config.Frac) : (r.pllTracked frac).carry = r.carry := by
  simp [Regs.pllTracked, Regs.pllMeasured, Regs.pllBank]

/-- The steps from the reload on leave what the quotient is made of. -/
theorem Regs.pllstepCmd_tickQuotient (r : Regs) (frac : Config.Frac) :
    (r.pllstepCmd frac).tickQuotient = (r.pllTracked frac).tickQuotient := by
  simp only [Regs.pllstepCmd_eq, Regs.tickQuotient, Regs.pllResults_nomticks, Regs.pllReload_nomticks,
    Regs.pllResults_fref, Regs.pllReload_fref, Regs.pllResults_feff, Regs.pllReload_feff, Regs.pllResults_fmin,
    Regs.pllReload_fmin]

/-- RELOAD and CARRY after PLLSTEP from the quotient that its registers name (R267). -/
theorem Regs.pllstepCmd_reload_carry (r : Regs) (frac : Config.Frac) (hcarry : r.CarryBelowTick) :
    (r.pllstepCmd frac).reload.toNat = min ((r.carry.toNat + (r.pllstepCmd frac).tickQuotient) / 65536) 65535 ∧
      (r.pllstepCmd frac).carry.toNat = (r.carry.toNat + (r.pllstepCmd frac).tickQuotient) % 65536 := by
  rw [r.pllstepCmd_tickQuotient, r.pllstepCmd_eq, Regs.pllResults_reload, Regs.pllResults_carry, ← r.pllTracked_carry frac]
  exact Regs.pllReload_toNat (by rwa [Regs.CarryBelowTick, r.pllTracked_carry])

/-- Settles O50: PLLSTEP writes none of NOMTICKS, FREF and FMIN, so the quotient of the new registers has the old ones. -/
theorem pllstepReloadAndCarry : Obligations.PllstepReloadAndCarry := by
  intro s hcarry
  have hnomticks : (s.regs.pllstepCmd s.frac).nomticks = s.regs.nomticks := by simp [Regs.pllstepCmd, Regs.pllBank]
  have hfref : (s.regs.pllstepCmd s.frac).fref = s.regs.fref := by simp [Regs.pllstepCmd, Regs.pllBank]
  have hfmin : (s.regs.pllstepCmd s.frac).fmin = s.regs.fmin := by simp [Regs.pllstepCmd, Regs.pllBank]
  have hreload := s.regs.pllstepCmd_reload_carry s.frac hcarry
  rw [Regs.tickQuotient, hnomticks, hfref, hfmin] at hreload
  exact ⟨_, exec_eq .pllstep s, hreload⟩

/-- One tick that does not saturate loses no time: RELOAD in whole ticks and the new CARRY hold the old CARRY and the quotient. -/
theorem exec_pllstep_reload_carry {u t : State} (h : exec .pllstep u = .next t) (hcarry : u.regs.CarryBelowTick)
    (hfits : (u.regs.carry.toNat + t.regs.tickQuotient) / 65536 ≤ 65535) :
    t.regs.reload.toNat = (u.regs.carry.toNat + t.regs.tickQuotient) / 65536 ∧
      t.regs.carry.toNat = (u.regs.carry.toNat + t.regs.tickQuotient) % 65536 := by
  rw [(exec_next_iff .pllstep u t).1 h] at hfits ⊢
  obtain ⟨hreload, hrest⟩ := u.regs.pllstepCmd_reload_carry u.frac hcarry
  exact ⟨hreload.trans (min_eq_left hfits), hrest⟩

/-- The carry so far and the next quotient split at the tick as the whole sum does. -/
theorem split_add (c q : Nat) :
    c / 65536 + (c % 65536 + q) / 65536 = (c + q) / 65536 ∧ (c % 65536 + q) % 65536 = (c + q) % 65536 := by
  omega

/-- Settles O53, by induction on the run: the reloads so far and CARRY are quotient and remainder of the time so far, and a tick
adds its quotient to both sides. -/
theorem reloadErrorDiffusion : Obligations.ReloadErrorDiffusion := by
  intro s t reloads quotients hcarry hrun
  induction hrun with
  | start => exact ⟨(Nat.div_eq_of_lt hcarry).symm, (Nat.mod_eq_of_lt hcarry).symm⟩
  | @tick reloads quotients u t a b c hrun hexec hfits ih =>
    obtain ⟨hsum, hrest⟩ := ih
    have hbelow : u.regs.CarryBelowTick := hrest.trans_lt (Nat.mod_lt _ (by decide))
    obtain ⟨hreload, hnext⟩ := exec_pllstep_reload_carry hexec hbelow hfits
    have hkept : (u.withSample a b c).regs.carry = u.regs.carry := rfl
    rw [hkept, hrest] at hreload hnext
    obtain ⟨hdiv, hmod⟩ := split_add (s.regs.carry.toNat + quotients) t.regs.tickQuotient
    rw [hsum, hreload, hnext, ← Nat.add_assoc]
    exact ⟨hdiv, hmod⟩

end Sys2Proof.Machine
end

section
/-! PROOFS. Family 46_system.md: which registers each command writes and what it may read, NOP and SRST, and a run of accesses that
reach the block. -/

namespace Sys2Proof

/-! ### What each command writes -/

/-- The registers that one sample of the bank writes (44_bank.md R236 to R238). -/
def Machine.Reg.bankState : List Machine.Reg :=
  [.acc, .err, .term 0 .alpha, .term 0 .beta, .term 1 .alpha, .term 1 .beta, .term 2 .alpha, .term 2 .beta, .term 3 .alpha,
    .term 3 .beta]

/-- The increments of the terms, which only the construction of the PLL writes (45_pll.md R251). -/
def Machine.Reg.increments : List Machine.Reg :=
  [.term 0 .sininc, .term 0 .cosinc, .term 1 .sininc, .term 1 .cosinc, .term 2 .sininc, .term 2 .cosinc, .term 3 .sininc,
    .term 3 .cosinc]

/-- The state of the PLL beside its bank (45_pll.md R251, R252). -/
def Machine.Reg.pllState : List Machine.Reg :=
  [.pi 0 .integ, .pi 1 .integ, .dposBar, .qposBar, .dnegBar, .qnegBar, .theta, .sin, .cos, .ferr, .feff, .dqD, .dqQ, .dqnD,
    .dqnQ, .reload, .carry]

/-- The result registers of a command (30_encoding.md R104). -/
def Instr.results : Instr → List (Fin 6)
  | .nop | .pllinit => []
  | .piupd _ => [0]
  | .uvec | .rot | .sh120p | .sh120n | .nharm | .clarke | .park | .ipark | .abc2dq => [0, 1]
  | .clarke0 | .iclarke | .iclarke0 => [0, 1, 2]
  | .bankstep => [0, 1, 2, 3]
  | .l2seq | .seq2l | .pllstep | .srst => [0, 1, 2, 3, 4, 5]

/-- The registers beside the results that a command may write. -/
def Instr.stateWritten : Instr → List Machine.Reg
  | .piupd sel => [.pi sel .integ]
  | .bankstep => Machine.Reg.bankState
  | .pllinit => .status :: Machine.Reg.increments ++ Machine.Reg.bankState ++ Machine.Reg.pllState
  | .pllstep => Machine.Reg.bankState ++ Machine.Reg.pllState
  | .srst => Machine.Reg.all
  | _ => []

/-- The registers that a command may write. -/
def Instr.written (i : Instr) : List Machine.Reg := i.results.map .out ++ i.stateWritten

/-- The pure commands (46_system.md R290). -/
def Instr.isPure : Instr → Bool
  | .nop | .piupd _ | .bankstep | .pllinit | .pllstep | .srst => false
  | _ => true

/-- A pure command writes its results only (46_system.md R290). -/
theorem Instr.written_of_isPure {i : Instr} (hi : i.isPure = true) : i.written = i.results.map .out := by
  cases i with
  | nop | piupd sel | bankstep | pllinit | pllstep | srst => cases hi
  | _ => rfl

/-- Only SRST writes operands or configuration (46_system.md R293). -/
theorem Instr.isConfig_eq_false_of_written {i : Instr} (hi : i ≠ .srst) :
    ∀ x ∈ i.written, x.isConfig = false := by
  cases i with
  | srst => contradiction
  | piupd sel => revert sel; decide
  | _ => decide

/-! ### The moves of a run -/

/-- A move that asks for a value (46_system.md R298). -/
def HostMove.isRead : HostMove → Bool
  | .read _ _ => true
  | .write _ _ _ => false
  | .reset => false

end Sys2Proof

namespace Sys2Proof.Machine

theorem Regs.pllinitCmd_frame (r : Regs) {x : Reg} (hx : x ∉ Instr.pllinit.written) : r.pllinitCmd.get x = r.get x := by
  unfold Regs.pllinitCmd
  split
  · have hstatus : x ≠ .status := fun h => hx (h ▸ by decide)
    rw [r.raise_get, if_neg hstatus]
  · exact r.pllConstruct_frame (List.notMem_of_subset (by decide) hx)

/-- PLLSTEP with the decoupling stage on writes the most (45_pll.md R252). -/
theorem Reg.decoupling_subset (dec : Bool) : Reg.decoupling dec ⊆ Reg.decoupling true := by
  cases dec <;> decide

theorem Regs.pllstepCmd_frame_written (r : Regs) (frac : Config.Frac) {x : Reg} (hx : x ∉ Instr.pllstep.written) :
    (r.pllstepCmd frac).get x = r.get x := by
  have hdec : x ∉ Reg.decoupling true := List.notMem_of_subset (by decide) hx
  exact r.pllstepCmd_frame frac
    (List.mem_append.not.2 (not_or.2 ⟨List.notMem_of_subset (by decide) hx, fun h => hdec (Reg.decoupling_subset _ h)⟩))

/-- A command leaves every register alone that it is not listed to write. -/
theorem Regs.afterCommand_frame (r : Regs) (frac : Config.Frac) (i : Instr) {x : Reg} (hx : x ∉ i.written) :
    (r.afterCommand frac i).get x = r.get x := by
  cases i with
  | nop => rfl
  | uvec | rot | sh120p | sh120n | nharm | clarke | park | ipark | abc2dq => exact Regs.result2_frame _ _ _ hx
  | clarke0 | iclarke | iclarke0 => exact Regs.result3_frame _ _ _ _ hx
  | l2seq | seq2l => exact Regs.result6_frame _ _ _ _ _ _ _ hx
  | piupd sel => exact r.piupdCmd_frame frac sel hx
  | bankstep => exact r.bankstepCmd_frame frac hx
  | pllinit => exact r.pllinitCmd_frame hx
  | pllstep => exact r.pllstepCmd_frame_written frac hx
  | srst => exact absurd (List.mem_append_right _ x.mem_all) hx

/-! ### The results of one computation in two register files -/

theorem Regs.result2_get_eq (r r' : Regs) (a b : Int) {k : Fin 6} (hk : k ∈ [0, 1]) :
    (r.result2 a b).out.get k = (r'.result2 a b).out.get k := by
  fin_cases hk <;> rfl

theorem Regs.result3_get_eq (r r' : Regs) (a b c : Int) {k : Fin 6} (hk : k ∈ [0, 1, 2]) :
    (r.result3 a b c).out.get k = (r'.result3 a b c).out.get k := by
  fin_cases hk <;> rfl

theorem Regs.result4_get_eq (r r' : Regs) (a b c d : Int) {k : Fin 6} (hk : k ∈ [0, 1, 2, 3]) :
    (r.result4 a b c d).out.get k = (r'.result4 a b c d).out.get k := by
  fin_cases hk <;> rfl

/-- All six results are written, so nothing of the register file is left in them. -/
theorem Regs.result6_out_eq (r r' : Regs) (a b c d e f : Int) :
    (r.result6 a b c d e f).out = (r'.result6 a b c d e f).out := rfl

/-! ### Pure commands -/

/-- A register file of which only the operands are left. -/
def Regs.inputsOnly (r : Regs) : Regs := { Regs.reset with inp := r.inp }

/-- A pure command computes its results from the operands alone, whatever FRAC is (R290, 70_reset_and_hazards.md R353). -/
theorem Regs.afterCommand_result_inputsOnly (r : Regs) (frac frac' : Config.Frac) {i : Instr} (hi : i.isPure = true)
    {k : Fin 6} (hk : k ∈ i.results) :
    (r.afterCommand frac i).out.get k = (r.inputsOnly.afterCommand frac' i).out.get k := by
  cases i with
  | uvec | rot | sh120p | sh120n | nharm | clarke | park | ipark | abc2dq => exact Regs.result2_get_eq _ _ _ _ hk
  | clarke0 | iclarke | iclarke0 => exact Regs.result3_get_eq _ _ _ _ _ hk
  | l2seq | seq2l => exact congrArg (·.get k) (Regs.result6_out_eq _ _ _ _ _ _ _ _)
  | nop | piupd sel | bankstep | pllinit | pllstep | srst => cases hi

/-- A pure command writes its results and nothing else (R290). -/
theorem onlyChanges_of_isPure {i : Instr} (hi : i.isPure = true) (s : State) :
    OnlyChanges (i.results.map .out) s { s with regs := s.regs.afterCommand s.frac i } :=
  ⟨rfl, rfl, rfl, fun _ hx => s.regs.afterCommand_frame s.frac i (Instr.written_of_isPure hi ▸ hx)⟩

/-- Settles O60: in two states with the same operands a pure command meets one file of operands; its other OUT registers are outside
its frame. -/
theorem pureCommandsDependOnOperandsOnly : Obligations.PureCommandsDependOnOperandsOnly := by
  intro i hmem
  have hi : i.isPure = true := by revert i; decide
  refine ⟨i.results, fun s s' hinp => ⟨_, _, exec_eq i s, exec_eq i s', fun k => ?_, onlyChanges_of_isPure hi s,
    onlyChanges_of_isPure hi s'⟩⟩
  split
  next hk =>
    have hinputs : s.regs.inputsOnly = s'.regs.inputsOnly := by rw [Regs.inputsOnly, hinp, Regs.inputsOnly]
    calc (s.regs.afterCommand s.frac i).out.get k
      _ = (s.regs.inputsOnly.afterCommand s'.frac i).out.get k := s.regs.afterCommand_result_inputsOnly _ _ hi hk
      _ = (s'.regs.inputsOnly.afterCommand s'.frac i).out.get k := by rw [hinputs]
      _ = (s'.regs.afterCommand s'.frac i).out.get k := (s'.regs.afterCommand_result_inputsOnly _ _ hi hk).symm
  next hk =>
    have hout : Reg.out k ∉ i.written := by rw [Instr.written_of_isPure hi]; simpa using hk
    exact ⟨s.regs.afterCommand_frame s.frac i hout, s'.regs.afterCommand_frame s'.frac i hout⟩

/-! ### What a command may read -/

/-- The register file with the registers that no command reads at 0 (R297; 10_state.md R25, R35). -/
def Regs.readable (r : Regs) : Regs := { r with cmd := 0, status := 0, out := Six.zero, acc := 0, err := 0 }

theorem Regs.readable_get (r : Regs) (x : Reg) : r.readable.get x = if x.isOutput = true then 0 else r.get x := by
  cases x with
  | out k => fin_cases k <;> rfl
  | _ => rfl

theorem Regs.readable_get_of_not_output (r : Regs) {x : Reg} (hx : x.isOutput = false) : r.readable.get x = r.get x := by
  rw [r.readable_get, hx]
  rfl

/-- Two register files that agree but for the outputs are one to a command. -/
theorem Regs.readable_eq_of_agree {r r' : Regs} (h : ∀ x : Reg, x.isOutput = false → r.get x = r'.get x) :
    r.readable = r'.readable := by
  refine Regs.eq_of_get fun x => ?_
  rw [r.readable_get, r'.readable_get]
  split
  next => rfl
  next hx => exact h x (by simpa using hx)

/-- What no command reads makes no difference to what it leaves in a register that commands read. -/
theorem Regs.get_eq_of_readable_eq {r r' : Regs} (h : r.readable = r'.readable) {x : Reg} (hx : x.isOutput = false) :
    r.get x = r'.get x := by
  rw [← r.readable_get_of_not_output hx, h, r'.readable_get_of_not_output hx]

/-! ### PLLSTEP reads no output -/

theorem Regs.pllBank_readable (r : Regs) (frac : Config.Frac) :
    (r.readable.pllBank frac).readable = (r.pllBank frac).readable := rfl

theorem Regs.pllDq_readable (r : Regs) : r.readable.pllDq = r.pllDq.readable := by
  have hctrl : r.readable.ctrl = r.ctrl := rfl
  rw [Regs.pllDq, Regs.pllDq, hctrl]
  split <;> rfl

theorem Regs.pllPhase_readable (r : Regs) (frac : Config.Frac) :
    r.readable.pllPhase frac = (r.pllPhase frac).readable := rfl

theorem Regs.pllUnit_readable (r : Regs) : r.readable.pllUnit = r.pllUnit.readable := rfl

theorem Regs.pllClock_readable (r : Regs) (frac : Config.Frac) :
    r.readable.pllClock frac = (r.pllClock frac).readable := rfl

theorem Regs.pllReload_readable (r : Regs) : r.readable.pllReload = r.pllReload.readable := by
  have hquotient : r.readable.reloadQuotient = r.reloadQuotient := rfl
  have hcarry : r.readable.carry = r.carry := rfl
  unfold Regs.pllReload
  dsimp only
  rw [hquotient, hcarry]
  split <;> rfl

theorem Regs.pllResults_readable (r : Regs) : r.pllResults.readable = r.readable := rfl

/-- The steps after the bank hand on what commands read, and the results go where none reads (45_pll.md R252, R269). -/
theorem Regs.pllstepCmd_readable (r : Regs) (frac : Config.Frac) :
    (r.readable.pllstepCmd frac).readable = (r.pllstepCmd frac).readable := by
  simp only [Regs.pllstepCmd, Regs.pllResults_readable, ← Regs.pllReload_readable, ← Regs.pllClock_readable,
    ← Regs.pllUnit_readable, ← Regs.pllPhase_readable, ← Regs.pllDq_readable, Regs.pllBank_readable]

/-- The results of PLLSTEP are copies of registers that commands read (R268). -/
theorem Regs.pllstepCmd_out_readable (r : Regs) (frac : Config.Frac) :
    (r.readable.pllstepCmd frac).out = (r.pllstepCmd frac).out := by
  have hcopied {x : Reg} (hx : x.isOutput = false) : (r.readable.pllstepCmd frac).get x = (r.pllstepCmd frac).get x :=
    Regs.get_eq_of_readable_eq (r.pllstepCmd_readable frac) hx
  rw [Regs.pllstepCmd_out, Regs.pllstepCmd_out]
  rw [Six.mk.injEq]
  exact ⟨hcopied (x := .theta) rfl, hcopied (x := .feff) rfl, hcopied (x := .sin) rfl, hcopied (x := .cos) rfl,
    hcopied (x := .reload) rfl, hcopied (x := .ferr) rfl⟩

theorem Regs.pllstepCmd_get_readable (r : Regs) (frac : Config.Frac) {x : Reg} (hcmd : x ≠ .cmd) (hstatus : x ≠ .status) :
    (r.pllstepCmd frac).get x = (r.readable.pllstepCmd frac).get x := by
  cases x with
  | cmd | status => contradiction
  | out k => exact congrArg (·.get k) (r.pllstepCmd_out_readable frac).symm
  | acc => exact (r.pllstepCmd_acc frac).trans (r.readable.pllstepCmd_acc frac).symm
  | err => exact (r.pllstepCmd_err frac).trans (r.readable.pllstepCmd_err frac).symm
  | _ => exact Regs.get_eq_of_readable_eq (r.pllstepCmd_readable frac).symm rfl

/-! ### No command reads an output -/

theorem Regs.bankstepCmd_get_readable (r : Regs) (frac : Config.Frac) {x : Reg} (hx : x ∈ Instr.bankstep.written) :
    (r.bankstepCmd frac).get x = (r.readable.bankstepCmd frac).get x := by
  obtain hout | hstate := List.mem_append.1 hx
  · obtain ⟨k, hk, rfl⟩ := List.mem_map.1 hout
    exact Regs.result4_get_eq _ _ _ _ _ _ hk
  · rw [Instr.stateWritten, Reg.bankState] at hstate
    fin_cases hstate <;> rfl

/-- What a command other than PLLINIT writes, it computes from what commands read (R297). -/
theorem Regs.afterCommand_get_readable (r : Regs) (frac : Config.Frac) {i : Instr} (hi : i ≠ .pllinit) {x : Reg}
    (hx : x ∈ i.written) : (r.afterCommand frac i).get x = (r.readable.afterCommand frac i).get x := by
  by_cases hpure : i.isPure = true
  case pos =>
    rw [Instr.written_of_isPure hpure] at hx
    obtain ⟨k, hk, rfl⟩ := List.mem_map.1 hx
    have hresult (r : Regs) := r.afterCommand_result_inputsOnly frac frac hpure hk
    exact (hresult r).trans (hresult r.readable).symm
  case neg =>
    cases i with
    | nop => cases hx
    | piupd sel => obtain rfl | rfl := List.mem_pair.1 hx <;> rfl
    | bankstep => exact r.bankstepCmd_get_readable frac hx
    | pllstep =>
      have hkept : Reg.cmd ∉ Instr.pllstep.written ∧ Reg.status ∉ Instr.pllstep.written := by decide
      exact r.pllstepCmd_get_readable frac (fun h => hkept.1 (h ▸ hx)) (fun h => hkept.2 (h ▸ hx))
    | srst => rfl
    | pllinit => contradiction
    | _ => exact absurd rfl hpure

/-- After two updates, register `x` holds the same in both files or has been left alone in both. -/
def Regs.SameOrKept (x : Reg) (r u r' u' : Regs) : Prop :=
  u.get x = u'.get x ∨ (u.get x = r.get x ∧ u'.get x = r'.get x)

theorem Regs.sameOrKept_afterCommand {r r' : Regs} (h : r.readable = r'.readable) (frac : Config.Frac) {i : Instr}
    (hi : i ≠ .pllinit) (x : Reg) :
    Regs.SameOrKept x r (r.afterCommand frac i) r' (r'.afterCommand frac i) := by
  by_cases hx : x ∈ i.written
  · refine .inl ?_
    rw [r.afterCommand_get_readable frac hi hx, h, ← r'.afterCommand_get_readable frac hi hx]
  · exact .inr ⟨r.afterCommand_frame frac i hx, r'.afterCommand_frame frac i hx⟩

/-- The construction leaves CMD, STATUS and the results alone, and makes the rest from what commands read (45_pll.md R251). -/
theorem Regs.sameOrKept_pllConstruct {r r' : Regs} (h : r.readable = r'.readable) (x : Reg) :
    Regs.SameOrKept x r r.pllConstruct r' r'.pllConstruct := by
  cases x with
  | cmd | status | out k => exact .inr ⟨rfl, rfl⟩
  | acc | err => exact .inl rfl
  | _ =>
    have hmade : r.pllConstruct.readable = r'.pllConstruct.readable := by
      calc r.pllConstruct.readable
        _ = r.readable.pllConstruct.readable := rfl
        _ = r'.readable.pllConstruct.readable := by rw [h]
        _ = r'.pllConstruct.readable := rfl
    exact .inl (Regs.get_eq_of_readable_eq hmade rfl)

/-- The configuration test reads no output, so that PLLINIT raises its fault in both files or in neither (R297, 45_pll.md R251). -/
theorem Regs.sameOrKept_pllinitCmd {r r' : Regs} (h : r.readable = r'.readable) (x : Reg) :
    Regs.SameOrKept x r r.pllinitCmd r' r'.pllinitCmd ∨
      (x = .status ∧ r.pllinitCmd.get x = r.get x ||| 2 ∧ r'.pllinitCmd.get x = r'.get x ||| 2) := by
  have hconfig : r.configBad = r'.configBad := by
    calc r.configBad
      _ = r.readable.configBad := rfl
      _ = r'.readable.configBad := by rw [h]
      _ = r'.configBad := rfl
  rw [Regs.pllinitCmd, Regs.pllinitCmd, ← hconfig]
  split
  next =>
    by_cases hx : x = .status
    · subst hx
      exact .inr ⟨rfl, rfl, rfl⟩
    · exact .inl (.inr ⟨(r.raise_get _ x).trans (if_neg hx), (r'.raise_get _ x).trans (if_neg hx)⟩)
  next => exact .inl (Regs.sameOrKept_pllConstruct h x)

/-- Settles O58: the two states are one to a command, and a register that the command does not write is left alone in both. -/
theorem commandsReadNoOutputOrFlag : Obligations.CommandsReadNoOutputOrFlag := by
  intro i s s' hfrac hagree
  have hreadable := Regs.readable_eq_of_agree hagree
  refine ⟨_, _, exec_eq i s, exec_eq i s', fun x => or_assoc.1 ?_⟩
  rw [← hfrac]
  by_cases hi : i = .pllinit
  · subst hi
    exact Regs.sameOrKept_pllinitCmd hreadable x
  · exact .inl (Regs.sameOrKept_afterCommand hreadable s.frac hi x)

/-! ### NOP and SRST -/

/-- Settles O20: the word of NOP is stored in CMD as every word is, and NOP does nothing more. -/
theorem nopLeavesOnlyItsWord : Obligations.NopLeavesOnlyItsWord := by
  refine fun s => ⟨rfl, exec_eq .nop s, fun rest hp => ?_⟩
  calc step s
    _ = executeWord (encode .nop) { s with pending := rest } := step_cmd_write hp
    _ = exec .nop { s with pending := rest, regs := { s.regs with cmd := 0 } } :=
      executeWord_of_decode (decode_encode .nop) _
    _ = .next { s with pending := rest, regs := { s.regs with cmd := 0 } } := exec_eq .nop _

/-- Settles O21: SRST puts the reset state in place of the register file, and no other command lists a configuration register as
written. -/
theorem srstResetsEveryRegister : Obligations.SrstResetsEveryRegister := by
  refine ⟨fun s => ⟨rfl, _, exec_eq .srst s, rfl, rfl, rfl, Regs.reset_get⟩, fun i s t x hi hexec hx => ?_⟩
  have hkept : x ∉ i.written := fun hw =>
    Bool.false_ne_true ((Instr.isConfig_eq_false_of_written hi x hw).symm.trans hx)
  rw [(exec_next_iff i s t).1 hexec]
  exact s.regs.afterCommand_frame s.frac i hkept

/-! ### Runs -/

/-- A read inside the block answers with one value and leaves FRAC and the waiting moves (20_memory.md R71). -/
theorem busRead_next (a n : Nat) (s : State) :
    ∃ r v, busRead a n s = .next { s with regs := r, reads := s.reads ++ [v] } := by
  rw [busRead_eq]
  split
  · exact ⟨_, _, rfl⟩
  · exact ⟨_, _, rfl⟩

theorem step_reset {s : State} {rest : List HostMove} (hp : s.pending = .reset :: rest) :
    step s = .next { s with regs := Regs.reset, pending := rest } := by
  rw [step, nextMove, hp]
  rfl

/-- A move that reaches the block is taken, and a read adds one value (R298, R299). -/
theorem step_of_wf {s : State} {m : HostMove} {rest : List HostMove} (hp : s.pending = m :: rest) (hm : m.wf = true) :
    ∃ t, step s = .next t ∧ t.pending = rest ∧ t.frac = s.frac ∧
      t.reads.length = s.reads.length + (if m.isRead then 1 else 0) := by
  cases m with
  | read a n =>
    obtain ⟨r, v, hread⟩ := busRead_next a n { s with pending := rest }
    exact ⟨_, (step_read hp (of_decide_eq_true hm)).trans hread, rfl, rfl, List.length_append⟩
  | write a n v => exact ⟨_, step_write hp (of_decide_eq_true hm), rfl, rfl, rfl⟩
  | reset => exact ⟨_, step_reset hp, rfl, rfl, rfl⟩

theorem run_succ_of_step {s t : State} (h : step s = .next t) (k : Nat) :
    Host.Core.run core (k + 1) s = Host.Core.run core k t := by
  have hcore : core.step s = .next t := h
  simp only [Host.Core.run, hcore]

/-- A run of moves that reach the block, by induction on the moves: each is taken, and then one fewer waits. -/
theorem run_of_inBlock (ms : List HostMove) (s : State) (hp : s.pending = ms) (hin : ∀ m ∈ ms, m.wf = true) :
    ∃ t, Host.Core.run core ms.length s = .next t ∧ t.pending = [] ∧ t.frac = s.frac ∧
      t.reads.length = s.reads.length + (ms.filter HostMove.isRead).length := by
  induction ms generalizing s with
  | nil => exact ⟨s, rfl, hp, rfl, rfl⟩
  | cons m rest ih =>
    obtain ⟨hm, hrest⟩ := List.forall_mem_cons.1 hin
    obtain ⟨u, hstep, hpu, hfu, hru⟩ := step_of_wf hp hm
    obtain ⟨t, hrun, hpt, hft, hrt⟩ := ih u hpu hrest
    refine ⟨t, (run_succ_of_step hstep _).trans hrun, hpt, hft.trans hfu, ?_⟩
    rw [hrt, hru, List.filter_cons]
    split
    next => rw [List.length_cons]; omega
    next => rfl

/-- Settles O59: `run_of_inBlock` on all the moves that wait. -/
theorem inBlockRunCompletes : Obligations.InBlockRunCompletes := fun s hin =>
  run_of_inBlock s.pending s rfl hin

end Sys2Proof.Machine
end

section
/-! PROOFS. Family 60_exceptions.md: the words that fail the decode, the accesses that reach no register, and the error of PLLINIT;
each raises its own bit of STATUS and nothing else. -/

namespace Sys2Proof

/-! ### Words that fail the decode -/

theorem zeroField_toNat (w : Word) : (zeroField w).toNat = w.toNat / 1024 := by
  have hlt : w.toNat / 1024 < 2 ^ 22 := by omega
  rw [zeroField, BitVec.extractLsb'_toNat, Nat.shiftRight_eq_div_pow, Nat.mod_eq_of_lt hlt]

theorem opcField_toNat (w : Word) : (opcField w).toNat = w.toNat % 256 := by
  rw [opcField, BitVec.extractLsb'_toNat, Nat.shiftRight_zero]

/-- The OPC values that are in use (30_encoding.md R109). -/
theorem Instr.opc_toNat_mem (i : Instr) :
    i.opc.toNat ∈ [0x00, 0x01, 0x02, 0x03, 0x04, 0x05, 0x10, 0x11, 0x12, 0x13, 0x14, 0x15, 0x16, 0x18, 0x19, 0x20, 0x30, 0x40,
      0x41, 0x7F] := by
  cases i with
  | piupd sel => revert sel; decide
  | _ => decide

/-- What a legal word keeps to, by number: a command passes each of the three tests (30_encoding.md R105). -/
theorem toNat_of_decode_ok {w : Word} {i : Instr} (h : decode w = .ok i) :
    w.toNat / 1024 = 0 ∧ w.toNat % 256 = i.opc.toNat ∧ (w.toNat % 256 ≠ 0x20 → w.toNat / 256 % 4 = 0) := by
  obtain ⟨hzero, hopc, hsel⟩ := (decode_eq_ok_iff_fields w i).1 h
  obtain ⟨-, -, -, hselZero, -⟩ := encode_formatC i
  rw [← zeroField_toNat, ← opcField_toNat, ← selField_toNat, hzero, hopc, hsel]
  refine ⟨rfl, rfl, fun hne => ?_⟩
  have hother : i.opc ≠ 0x20 := fun heq => hne (congrArg BitVec.toNat heq)
  rw [hselZero hother]
  rfl

theorem exists_decode_error {w : Word} (h : ∀ i, decode w ≠ .ok i) : ∃ e, decode w = .error e := by
  cases hdec : decode w with
  | error e => exact ⟨e, rfl⟩
  | ok i => exact absurd hdec (h i)

end Sys2Proof

namespace Sys2Proof.Machine

/-! ### A fault raised by a write to CMD -/

/-- The word stored in CMD and one fault raised: the outcome of R311 and of R312 (60_exceptions.md R316). -/
theorem onlyChanges_raise_of_cmd (s : State) (w : Word) (f : StickyFault) :
    OnlyChanges [.cmd, .status] s { s with regs := { s.regs with cmd := w }.raise f } := by
  refine ⟨rfl, rfl, rfl, fun x hx => ?_⟩
  obtain ⟨hcmd, hstatus⟩ : x ≠ .cmd ∧ x ≠ .status := by simpa using hx
  rw [Regs.raise_get, if_neg hstatus]
  exact s.regs.get_set_ne w hcmd

theorem executeWord_of_decode_error {w : Word} {e : DecodeError} (h : decode w = .error e) (s : State) :
    executeWord w s = .next { s with regs := { s.regs with cmd := w }.raise .illegalCommand } := by
  rw [executeWord, h]
  rfl

/-- Settles O9: a command's word passes the three tests, so a word that fails one is no command's. -/
theorem illegalWordSetsIllcmdOnly : Obligations.IllegalWordSetsIllcmdOnly := by
  intro s w rest hp hfail
  have hillegal : ∀ i, decode w ≠ .ok i := by
    intro i hdec
    obtain ⟨hzero, hopc, hsel⟩ := toNat_of_decode_ok hdec
    obtain hbits | hrow | ⟨hother, hnonzero⟩ := hfail
    · exact hbits hzero
    · exact hrow (hopc ▸ i.opc_toNat_mem)
    · exact hnonzero (hsel hother)
  obtain ⟨e, herror⟩ := exists_decode_error hillegal
  exact ⟨_, (step_cmd_write hp).trans (executeWord_of_decode_error herror _), rfl, rfl, onlyChanges_raise_of_cmd _ _ _⟩

/-! ### PLLINIT with a zero in the configuration -/

theorem executeWord_pllinit_of_bad {s : State} (h : s.regs.fref = 0 ∨ s.regs.fmin = 0 ∨ s.regs.nomticks = 0) :
    executeWord (encode .pllinit) s =
      .next { s with regs := { s.regs with cmd := encode .pllinit }.raise .configError } := by
  have hbad : Regs.pllinitCmd { s.regs with cmd := encode .pllinit } = _ := Regs.pllinitCmd_of_bad h
  rw [executeWord_of_decode (decode_encode .pllinit), exec_eq, Regs.afterCommand, hbad]

/-- Only PLLINIT raises a fault and only SRST clears one (60_exceptions.md R312). -/
theorem Reg.status_notMem_written {i : Instr} (hinit : i ≠ .pllinit) (hsrst : i ≠ .srst) : Reg.status ∉ i.written := by
  cases i with
  | pllinit | srst => contradiction
  | piupd sel => revert sel; decide
  | _ => decide

/-- Settles O43: the error path of PLLINIT with its word in CMD; STATUS is in the frame of the other commands. -/
theorem configErrorChangesNothingElse : Obligations.ConfigErrorChangesNothingElse := by
  refine ⟨fun s rest hp hbad => ?_, fun i s t hinit hsrst hexec => ?_⟩
  · exact ⟨_, (step_cmd_write hp).trans (executeWord_pllinit_of_bad hbad), rfl, rfl, onlyChanges_raise_of_cmd _ _ _⟩
  · rw [(exec_next_iff i s t).1 hexec]
    exact s.regs.afterCommand_frame s.frac i (Reg.status_notMem_written hinit hsrst)

/-! ### Accesses that reach no register -/

/-- No register stands at an offset that 10_state.md R45 reserves. -/
theorem reservedOffset_offset (x : Reg) : reservedOffset x.offset = false := by
  have hall : ∀ y ∈ Reg.all, reservedOffset y.offset = false := by decide
  exact hall x x.mem_all

/-- The bad accesses of R313 by size, alignment and offset reach no register (20_memory.md R71, R74). -/
theorem accessReg_eq_none {a n : Nat} (h : n ≠ 4 ∨ a % 4 ≠ 0 ∨ reservedOffset a = true) : accessReg a n = none := by
  refine Option.eq_none_iff_forall_ne_some.2 fun x hx => ?_
  obtain ⟨rfl, rfl⟩ := (accessReg_eq_some_iff a n x).1 hx
  obtain hsize | halign | hreserved := h
  · exact hsize rfl
  · exact halign x.offset_in_block.1
  · exact Bool.false_ne_true ((reservedOffset_offset x).symm.trans hreserved)

/-- Settles O15: the access reaches no register, so a read and a write each take their bad branch. -/
theorem badAccessSetsBadaddrOnly : Obligations.BadAccessSetsBadaddrOnly := by
  intro s a n v rest ha hbad
  have hnone := accessReg_eq_none hbad
  refine ⟨fun hp => ?_, fun hp => ?_⟩
  · rw [step_read hp ha, busRead_eq, hnone]
    rfl
  · rw [step_write hp ha, Regs.afterWrite_bad _ _ _ hnone]
    rfl

end Sys2Proof.Machine
end

section
/-! PROOFS. Family 70_reset_and_hazards.md: a tick of the PLL straight from reset, the reset input; and the two steps that take no
move, the access outside the block and the idle one. -/

namespace Sys2Proof.Machine

/-! ### The parts of PLLSTEP with everything at its reset value -/

/-- A term of gain 0 that stands still stays so, whatever the error (44_bank.md R237). -/
theorem termStep_zero (frac : Config.Frac) (err : Int) : termStep frac TermRegs.zero err = TermRegs.zero := by
  have hkalpha : smulF frac (s32 TermRegs.zero.kalpha) err = 0 := smulAt_zero_left frac.val err
  have hkbeta : smulF frac (s32 TermRegs.zero.kbeta) err = 0 := smulAt_zero_left frac.val err
  rw [termStep, hkalpha, hkbeta]
  decide

/-- A PI instance with gain, integral and clamp 0 gives 0 and stays so, whatever the error (43_pi.md R220). -/
theorem piUpdate_zero (frac : Config.Frac) (e : Int) : piUpdate frac PiRegs.zero e = ⟨PiRegs.zero, 0⟩ := by
  have hki : smulF frac (s32 PiRegs.zero.ki) e = 0 := smulAt_zero_left frac.val e
  have hkp : smulF frac (s32 PiRegs.zero.kp) e = 0 := smulAt_zero_left frac.val e
  rw [piUpdate, piIntegral, hki, hkp]
  decide

/-- The bank with every term at 0 estimates 0, so the error is the sample (44_bank.md R236). -/
theorem bankError_reset {m : Int} (hm : IsWord m) : bankError Regs.reset.term m = m := by
  have hestimate : bankEstimate Regs.reset.term = 0 := by decide
  rw [bankError, hestimate, ssub, sub_zero, sat32_of_isWord hm]

/-! ### PLLSTEP from reset -/

/-- The reset values but for the operands and ERR: what the tick from reset keeps to, up to its results
(70_reset_and_hazards.md R353). -/
def Regs.uninitialised (inp : Six) (err : Word) : Regs := { Regs.reset with inp := inp, err := err }

theorem Regs.uninitialised_pllBank (inp : Six) (err : Word) (frac : Config.Frac) :
    (uninitialised inp err).pllBank frac = uninitialised inp (u32 (clarkeAlpha (uninitialised inp err).operandAbc)) := by
  have hword : IsWord (clarkeAlpha (uninitialised inp err).operandAbc) := isWord_ssub _ _
  have hterm (e : Int) : bankTerms frac Regs.reset.term e = Regs.reset.term := by
    simp only [bankTerms, Regs.reset, termStep_zero]
  have hacc : u32 (bankEstimate Regs.reset.term) = 0 := by decide
  have hreset : (uninitialised inp err).term = Regs.reset.term := rfl
  rw [Regs.pllBank, Regs.bankSample, hreset, bankError_reset hword, hterm, hacc]
  rfl

/-- DEC is 0, and the Park pair of a term at 0 is 0 (45_pll.md R256). -/
theorem Regs.uninitialised_pllDq (inp : Six) (err : Word) : (uninitialised inp err).pllDq = uninitialised inp err := by
  have hdec : decBit Regs.reset.ctrl = false := by decide
  have hctrl : (uninitialised inp err).ctrl = Regs.reset.ctrl := rfl
  have hpark : Regs.reset.dqPos = ⟨0, 0⟩ := by decide
  have hdqPos : (uninitialised inp err).dqPos = ⟨0, 0⟩ := hpark
  rw [Regs.pllDq, hctrl, hdec, if_neg Bool.false_ne_true, Regs.pllPlain, hdqPos]
  rfl

/-- FREF and the loop's output are 0, so THETA does not advance (45_pll.md R262). -/
theorem Regs.uninitialised_pllPhase (inp : Six) (err : Word) (frac : Config.Frac) :
    (uninitialised inp err).pllPhase frac = uninitialised inp err := by
  have hloop (e : Int) : piUpdate frac ((uninitialised inp err).pi.get 0) e = ⟨PiRegs.zero, 0⟩ := piUpdate_zero frac e
  rw [Regs.pllPhase, Regs.piStep, Regs.piOutput, hloop]
  rfl

/-- (SIN, COS) is the unit vector of THETA already (45_pll.md R264; 10_state.md R38). -/
theorem Regs.uninitialised_pllUnit (inp : Six) (err : Word) : (uninitialised inp err).pllUnit = uninitialised inp err := by
  obtain ⟨hsin, hcos⟩ : (uninitialised inp err).Coherent := Regs.reset_coherent
  rw [Regs.pllUnit, ← hsin, ← hcos]

/-- FREF and the clock loop's output are 0, so FEFF is (45_pll.md R265). -/
theorem Regs.uninitialised_pllClock (inp : Six) (err : Word) (frac : Config.Frac) :
    (uninitialised inp err).pllClock frac = uninitialised inp err := by
  have hloop (e : Int) : piUpdate frac ((uninitialised inp err).pi.get 1) e = ⟨PiRegs.zero, 0⟩ := piUpdate_zero frac e
  rw [Regs.pllClock, Regs.piStep, Regs.piOutput, hloop]
  rfl

/-- NOMTICKS is 0, so the quotient is, over the guarded divisor 1 (45_pll.md R266, R267). -/
theorem Regs.uninitialised_pllReload (inp : Six) (err : Word) : (uninitialised inp err).pllReload = uninitialised inp err := by
  have hreset : Regs.reset.reloadQuotient = 0 := by decide
  have hquotient : (uninitialised inp err).reloadQuotient = 0 := hreset
  rw [Regs.pllReload, hquotient]
  rfl

/-- Each step finds the file uninitialised and leaves it so: only ERR, and with the results the copy of COS, is new. -/
theorem Regs.uninitialised_pllstepCmd (inp : Six) (err : Word) (frac : Config.Frac) :
    (uninitialised inp err).pllstepCmd frac =
      ((uninitialised inp err).set .err (u32 (clarkeAlpha (uninitialised inp err).operandAbc))).set (.out 3) 0x7FFFFFFF := by
  rw [Regs.pllstepCmd, uninitialised_pllBank, uninitialised_pllDq, uninitialised_pllPhase, uninitialised_pllUnit,
    uninitialised_pllClock, uninitialised_pllReload]
  rfl

/-- Settles O54: the file after reset with a sample in IN0 to IN2 is uninitialised, and CLARKE's first result is the error. -/
theorem pllstepFromReset : Obligations.PllstepFromReset := by
  intro frac a b c
  obtain ⟨hexec, hframe⟩ := exec_of_frame (i := .pllstep) (s := State.withSample { State.reset with frac := frac } a b c)
    (xs := [.err, .out 3]) (Regs.uninitialised_pllstepCmd ⟨a, b, c, 0, 0, 0⟩ 0 frac) fun x hx => by
      obtain ⟨herr, hout⟩ : x ≠ .err ∧ x ≠ .out 3 := by simpa using hx
      rw [Regs.get_set_ne _ _ hout]
      exact Regs.get_set_ne _ _ herr
  exact ⟨_, _, exec_eq .clarke _, hexec, rfl, rfl, hframe⟩

/-! ### The reset input -/

/-- Settles O18: the reset input puts the reset state in place of the register file. -/
theorem hardwareResetGivesResetValues : Obligations.HardwareResetGivesResetValues := fun _ _ hp =>
  ⟨_, step_reset hp, rfl, rfl, rfl, Regs.reset_get⟩

/-! ### Steps that take no move -/

theorem inBlock_eq_false {a : Nat} (ha : 0x200 ≤ a) : inBlock a = false := decide_eq_false (Nat.not_lt.2 ha)

theorem hostMove_read_outside {a : Nat} (ha : 0x200 ≤ a) (n : Nat) (s : State) :
    hostMove (.read a n) s = .fault (.outsideBlock a) := by
  rw [hostMove, inBlock_eq_false ha, if_neg Bool.false_ne_true]

theorem hostMove_write_outside {a : Nat} (ha : 0x200 ≤ a) (n : Nat) (v : Word) (s : State) :
    hostMove (.write a n v) s = .fault (.outsideBlock a) := by
  rw [hostMove, inBlock_eq_false ha, if_neg Bool.false_ne_true]

theorem step_of_pending {s : State} {m : HostMove} {rest : List HostMove} (hp : s.pending = m :: rest) :
    step s = hostMove m { s with pending := rest } := by
  rw [step, nextMove, hp]

/-- Settles O16: both kinds of access stop at the test of the offset, before the block. -/
theorem outsideAccessStops : Obligations.OutsideAccessStops := by
  intro s a n v rest ha hp
  obtain hread | hwrite := hp
  · exact (step_of_pending hread).trans (hostMove_read_outside ha n _)
  · exact (step_of_pending hwrite).trans (hostMove_write_outside ha n v _)

/-- Settles O19: with no move waiting, `nextMove` answers the state it was given. -/
theorem idleStepChangesNothing : Obligations.IdleStepChangesNothing := fun s hp => by
  rw [step, nextMove, hp]

end Sys2Proof.Machine
end
